-- ==== Sys2Proof/Word.lean ====
section
/-! DEFINITION. The bit-vector types of the DHTRX, one name for each width the spec uses
(10_state.md rules R22 to R33). Every value is unsigned and bit 0 is the least significant
(00_scope.md rule R6). -/

namespace Sys2Proof

/-- One bit: a line level, a line sample, a flag, a one-bit field. -/
abbrev Bit := BitVec 1

/-- One byte of the five-byte frame (30_encoding.md rule R84). -/
abbrev Byte := BitVec 8

/-- A host register word, `REG_WIDTH` = 32 bits (00_scope.md rule R5, 20_memory.md rule R51). -/
abbrev Word := BitVec 32

/-- A host byte offset `addr[4:0]`, `ADDR_WIDTH` = 5 bits (00_scope.md rule R5, 20_memory.md rule R50). -/
abbrev Offset := BitVec 5

/-- A tick count, `CNT_WIDTH` = 17 bits (00_scope.md rule R5, 10_state.md rules R24 and R28). -/
abbrev TickCount := BitVec 17

/-- A 40-bit frame: SHIFT or DATA (10_state.md rules R26 and R27). -/
abbrev FrameBits := BitVec 40

/-- A host bus request word `{BUSREQ[5:0], wdata[31:0]}`, 38 bits (30_encoding.md rule R70 and its introduction). -/
abbrev RequestWord := BitVec 38

/-- A 3-bit code: of a phase (30_encoding.md rule R82), of a result (rule R81), of a command (rule R80). -/
abbrev Code := BitVec 3

end Sys2Proof
end

