-- ==== Sys2Proof/Config.lean ====
section
/-! DEFINITION. What an implementation of the DHTRX fixes (00_scope.md rule R5, 93_implementation_defined.md)
and the values the spec leaves open. The operations of the machine take a `Params`, so a claim can quantify
over it; the machine itself runs with `params`, the values of rule R5. -/

namespace Sys2Proof

/-- The order of increment and bound test in the Pulse Timer, `PT_CHECK_ORDER`
(40_pulse_timer.md rules R101 and R109, 92_eei_decisions.md D4). -/
inductive CheckOrder where
  | incrementThenCheck
  | checkThenIncrement
  deriving DecidableEq, Repr

/-- The implementation parameters of 00_scope.md rule R5, all fifteen. -/
structure Params where
  /-- `TICK_PERIOD_NS`: the length of one tick. -/
  tickPeriodNs : Nat
  /-- `T_START_LOW`, in ticks. -/
  tStartLow : Nat
  /-- `T_START_HIGH`, in ticks. -/
  tStartHigh : Nat
  /-- `TO_ACK_LOW`, in ticks. -/
  toAckLow : Nat
  /-- `TO_ACK_HIGH`, in ticks. -/
  toAckHigh : Nat
  /-- `TO_MARK`, in ticks. -/
  toMark : Nat
  /-- `TO_HIGH`, in ticks. -/
  toHigh : Nat
  /-- `NBITS`: data bits of a frame. -/
  nbits : Nat
  /-- `THRESH_RESET`: reset value of CONFIG.THRESH. -/
  threshReset : Byte
  /-- `MTIMEOUT_RESET`: reset value of CONFIG.MTIMEOUT. -/
  mtimeoutReset : BitVec 16
  /-- `PT_CHECK_ORDER`. -/
  order : CheckOrder
  /-- `REG_WIDTH`: the width of a host register and of every host access. -/
  regWidth : Nat
  /-- `ADDR_WIDTH`: the width of a host byte offset. -/
  addrWidth : Nat
  /-- `CNT_WIDTH`: the width of the tick counter. -/
  cntWidth : Nat
  /-- `MIN_INTERVAL_US`: the host's duty of rule R245; no rule of the block reads it. -/
  minIntervalUs : Nat
  deriving DecidableEq, Repr

/-- The values of 00_scope.md rule R5. -/
def params : Params where
  tickPeriodNs := 1000
  tStartLow := 20000
  tStartHigh := 40
  toAckLow := 80
  toAckHigh := 80
  toMark := 50
  toHigh := 80
  nbits := 40
  threshReset := 30#8
  mtimeoutReset := 80#16
  order := .incrementThenCheck
  regWidth := 32
  addrWidth := 5
  cntWidth := 17
  minIntervalUs := 2000000

/-- A bound or a duration of a legal build: 1 to 65535 (00_scope.md rule R5; 93_implementation_defined.md I14). -/
abbrev Params.legal (n : Nat) : Prop := 1 ≤ n ∧ n ≤ 65535

/-- A legal build: every bound and duration lies in 1..65535, a frame has 40 bits, and the three widths are those of
the types `Word`, `Offset` and `TickCount`, which the field layouts of 30_encoding.md and 10_state.md fix
(00_scope.md rule R5, 43_frame_sampler.md rule R145, 93_implementation_defined.md I14). -/
abbrev Params.wf (p : Params) : Prop :=
  Params.legal p.tStartLow ∧ Params.legal p.tStartHigh ∧ Params.legal p.toAckLow ∧
  Params.legal p.toAckHigh ∧ Params.legal p.toMark ∧ Params.legal p.toHigh ∧ p.nbits = 40 ∧
  p.regWidth = 32 ∧ p.addrWidth = 5 ∧ p.cntWidth = 17

/-- How far a count may exceed its bound without a timeout: 0 in the default order, 1 in the other
(40_pulse_timer.md rules R101 and R109). -/
def Params.slack (p : Params) : Nat :=
  match p.order with
  | .incrementThenCheck => 0
  | .checkThenIncrement => 1

namespace Config

/-- FREE VALUE. The line sample of the n-th tick for which the outside world has placed no sample: an
unconstrained draw (00_scope.md rule R7, 92_eei_decisions.md D7; log entry 3). -/
opaque freeSample : Nat → Bit

/-- FREE VALUE. The integrator's clock frequency in hertz (10_state.md rules R33 and R34, 70_reset_and_hazards.md
rule R244, 93_implementation_defined.md I15). DESIGN CHOICE: it is a rational number, so every frequency that has an
exact fraction is among its values (48 MHz is); the spec names no unit and no range (log entry 6). -/
opaque clockHz : Rat

/-- FREE VALUE. `SENSOR_SETTLE_US`, the open parameter of 70_reset_and_hazards.md rule R234: a host duty that
the block does not enforce (log entry 11). -/
opaque sensorSettleUs : Nat

end Config

/-- The clocks of one tick period at the clock frequency `hz`: the whole number of clock periods in TICK_PERIOD_NS.
DESIGN CHOICE: the quotient is rounded down, and a frequency that is not positive, or whose period is longer than
TICK_PERIOD_NS, gives 0. The spec gives the clock no legal range (log entry 6). -/
def clocksIn (p : Params) (hz : Rat) : Nat := (hz * p.tickPeriodNs / 1000000000).floor.toNat

/-- The tick prescaler's divisor, in clocks: "the tick prescaler's divisor follows from the clock frequency and
TICK_PERIOD_NS" (70_reset_and_hazards.md rule R244). How it follows is `clocksIn`'s choice (log entry 6). -/
def clocksPerTick (p : Params) : Nat := clocksIn p Config.clockHz

end Sys2Proof
end

