-- ==== Sys2Proof/Machine/State.lean ====
section
/-! DEFINITION. The state of the DHTRX: every piece of state 10_state.md names, the word the host port last
returned, and the outside world's coming events. Derived values (BUSY, `line_oe`, `line_out`, `irq`, RAW1.SUM,
RAW1.MATCH) are not stored: Flags.lean computes them (10_state.md rules R23, R32, R33 and R36). -/

namespace Sys2Proof.Machine

/-- PHASE, the sequencer's state (10_state.md rule R22, 30_encoding.md rule R82). -/
inductive Phase where
  | idle
  | startLow
  | startHigh
  | ackLow
  | ackHigh
  | bitMark
  | bitHigh
  | measure
  deriving DecidableEq, Repr

/-- The five phases that are waits of the Pulse Timer (40_pulse_timer.md rule R103). -/
inductive WaitPhase where
  | ackLow
  | ackHigh
  | bitMark
  | bitHigh
  | measure
  deriving DecidableEq, Repr

/-- STATUS.RESULT (30_encoding.md rule R81). Code 7 is reserved and never produced, so it has no name here. -/
inductive Result where
  | none
  | valid
  | responseTimeout
  | bitTimeout
  | checksumMismatch
  | measureOk
  | measureTimeout
  deriving DecidableEq, Repr

/-- One access on the host register port: `we`, `addr[4:0]` and `wdata[31:0]` (10_state.md rule R33), and how
many bits the host asked to move (20_memory.md rule R51). -/
structure Access where
  width : Nat
  we : Bit
  off : Offset
  wdata : Word
  deriving DecidableEq, Repr

/-- The events of 00_scope.md rule R8, and one clock of the tick prescaler (10_state.md rule R34). -/
inductive Event where
  /-- `Tick(s)`: the sequencer steps with the line sample `smp`. -/
  | tick (smp : Bit)
  /-- `HostWrite(off, v)` or `HostRead(off)`. -/
  | access (a : Access)
  /-- `Reset`: one clock in which `rst` is asserted. -/
  | reset
  /-- One clock in which `rst` is not asserted; `smp` is the level of `line_in` in it. -/
  | clock (smp : Bit)
  deriving DecidableEq, Repr

structure State where
  /-- PHASE (rule R22). -/
  phase : Phase
  /-- CNT, internal (rule R24). -/
  cnt : TickCount
  /-- BITIDX (rule R25). -/
  bitidx : BitVec 6
  /-- SHIFT (rule R26). -/
  shift : FrameBits
  /-- DATA (rule R27). -/
  data : FrameBits
  /-- COUNT (rule R28). -/
  count : TickCount
  /-- CONFIG.THRESH (rule R29). -/
  thresh : Byte
  /-- CONFIG.IE (rule R29). -/
  ie : Bit
  /-- CONFIG.MLEVEL (rule R29). -/
  mlevel : Bit
  /-- CONFIG.MTIMEOUT (rule R29). -/
  mtimeout : BitVec 16
  /-- STATUS.DONE (rule R30). -/
  done : Bit
  /-- STATUS.CMDERR (rule R30). -/
  cmderr : Bit
  /-- STATUS.RESULT (rule R30). -/
  result : Result
  /-- STATUS.ERRPHASE (rule R30, 30_encoding.md rule R83). -/
  errphase : Code
  /-- THR_S, the snapshot of THRESH (rule R31). -/
  thrS : Byte
  /-- MLVL_S, the snapshot of MLEVEL (rule R31). -/
  mlvlS : Bit
  /-- MTO_S, the snapshot of MTIMEOUT (rule R31). -/
  mtoS : BitVec 16
  /-- TICKGEN, the tick prescaler: clocks since its last tick or restart (rule R34). -/
  tickgen : Nat
  /-- The port output `rdata[31:0]`: the word the last host read returned (rule R33; log entry 2). -/
  rdata : Word
  /-- MODEL'S OWN: the coming events of the host and the environment, the next one first (log entry 4). -/
  inputs : List Event
  /-- MODEL'S OWN: how many free line samples have been drawn (log entry 3). -/
  draws : Nat
  deriving DecidableEq, Repr

/-- The state right after reset (10_state.md rule R37): IDLE, the line released, CONFIG 0x0050001E, all else 0. -/
def State.reset : State where
  phase := .idle
  cnt := 0#17
  bitidx := 0#6
  shift := 0#40
  data := 0#40
  count := 0#17
  thresh := params.threshReset
  ie := 0#1
  mlevel := 0#1
  mtimeout := params.mtimeoutReset
  done := 0#1
  cmderr := 0#1
  result := .none
  errphase := 0#3
  thrS := params.threshReset
  mlvlS := 0#1
  mtoS := params.mtimeoutReset
  tickgen := 0
  rdata := 0#32
  inputs := []
  draws := 0

/-- A machine stop. There is none: "No event in the DHTRX traps or transfers control" (60_exceptions.md rule
R200), every error is recorded in STATUS and the machine goes on. -/
inductive Fault where
  deriving DecidableEq, Repr

/-- What the model declines, by name. -/
inductive Refusal where
  /-- Raised by `exec` alone, for an instruction that has no meaning yet. Safe: nothing is claimed of it. -/
  | notModelled (mnemonic : String)
  /-- Raised by `step` for a host access that does not move exactly 32 bits: "The model admits only 32-bit
  accesses and refuses any other width by name" (20_memory.md rule R51, 93_implementation_defined.md I13). Safe:
  an integrator's bridge widens such an access before it reaches the block. -/
  | accessWidth (bits : Nat)
  deriving DecidableEq, Repr

/-- What one instruction or one step answers. -/
abbrev Answer := Host.Outcome State Fault Refusal

end Sys2Proof.Machine
end

