-- ==== Sys2Proof/Machine/Operands.lean ====
section
/-! DEFINITION. Operand assembly (30_encoding.md rule R79): the codes of phases and results, the level and bound of
each wait, the words of the host-visible registers, and the request word of a host access. -/

namespace Sys2Proof.Machine

/-- The 3-bit phase code (30_encoding.md rule R82). -/
def Phase.code : Phase → Code
  | .idle => 0#3
  | .startLow => 1#3
  | .startHigh => 2#3
  | .ackLow => 3#3
  | .ackHigh => 4#3
  | .bitMark => 5#3
  | .bitHigh => 6#3
  | .measure => 7#3

/-- The phase of a 3-bit code (30_encoding.md rule R82). -/
def Phase.ofCode (c : Code) : Phase :=
  if c = 0#3 then .idle
  else if c = 1#3 then .startLow
  else if c = 2#3 then .startHigh
  else if c = 3#3 then .ackLow
  else if c = 4#3 then .ackHigh
  else if c = 5#3 then .bitMark
  else if c = 6#3 then .bitHigh
  else .measure

/-- A wait phase as a phase. -/
def WaitPhase.phase : WaitPhase → Phase
  | .ackLow => .ackLow
  | .ackHigh => .ackHigh
  | .bitMark => .bitMark
  | .bitHigh => .bitHigh
  | .measure => .measure

/-- The 3-bit result code (30_encoding.md rule R81). -/
def Result.code : Result → Code
  | .none => 0#3
  | .valid => 1#3
  | .responseTimeout => 2#3
  | .bitTimeout => 3#3
  | .checksumMismatch => 4#3
  | .measureOk => 5#3
  | .measureTimeout => 6#3

/-- `lvl(P)`: the level a wait counts (30_encoding.md rule R82). -/
def waitLevel (s : State) : WaitPhase → Bit
  | .ackLow => 0#1
  | .ackHigh => 1#1
  | .bitMark => 0#1
  | .bitHigh => 1#1
  | .measure => s.mlvlS

/-- `bound(P)`: the bound of a wait, in ticks (30_encoding.md rule R82). -/
def waitBound (p : Params) (s : State) : WaitPhase → Nat
  | .ackLow => p.toAckLow
  | .ackHigh => p.toAckHigh
  | .bitMark => p.toMark
  | .bitHigh => p.toHigh
  | .measure => s.mtoS.toNat

/-- The RESULT of a timeout in a wait phase (60_exceptions.md rule R202). -/
def timeoutResult : WaitPhase → Result
  | .ackLow => .responseTimeout
  | .ackHigh => .responseTimeout
  | .bitMark => .bitTimeout
  | .bitHigh => .bitTimeout
  | .measure => .measureTimeout

/-- Frame byte k, `F[39-8k : 32-8k]`, for k = 0..4 (10_state.md rule R26, 44_checksum_validator.md rule R160). -/
def frameByte (f : FrameBits) (k : Nat) : Byte := f.extractLsb' (32 - 8 * k) 8

/-- `F[39:8]`: frame bytes 0 to 3, byte 0 in bits 31:24 (30_encoding.md rules R75 and R77). -/
def frameHigh (f : FrameBits) : Word := f.extractLsb' 8 32

/-- The bit value of a high pulse of count `c`: 1 iff `c > THR_S`, unsigned (43_frame_sampler.md rule R143). -/
def bitOf (thrS : Byte) (c : TickCount) : Bit := if thrS.toNat < c.toNat then 1#1 else 0#1

/-- `SHIFT[39 - i] <- b`, every other bit kept (43_frame_sampler.md rule R144). For `i` of 40 or more, which no
run reaches, nothing is written (log entry 7). -/
def placeBit (f : FrameBits) (i : BitVec 6) (b : Bit) : FrameBits :=
  if i.toNat < 40 then
    (f &&& ~~~(1#40 <<< (39 - i.toNat))) ||| (b.setWidth 40 <<< (39 - i.toNat))
  else f

/-- The request word of a host access: `{we, off[4:0], wdata[31:0]}` (30_encoding.md rule R70). -/
def Access.word (a : Access) : RequestWord := a.we ++ a.off ++ a.wdata

/-- A 32-bit write of `v` at byte offset `off`: `MemWrite(off, 4, v)` (00_scope.md rules R7 and R8). -/
def hostWrite (off : Offset) (v : Word) : Access := ⟨32, 1#1, off, v⟩

/-- A 32-bit read at byte offset `off`: `MemRead(off, 4)` (00_scope.md rules R7 and R8). -/
def hostRead (off : Offset) : Access := ⟨32, 0#1, off, 0#32⟩

end Sys2Proof.Machine
end

