-- ==== Sys2Proof/Machine/Flags.lean ====
section
/-! DEFINITION. The derived values of the DHTRX: BUSY, the line outputs, `irq` and the checksum view
(10_state.md rules R23, R32, R33 and R36), and the words a host read composes from the state (30_encoding.md
rules R71 to R78). -/

namespace Sys2Proof.Machine

/-- BUSY = (PHASE ≠ IDLE) (10_state.md rule R23). -/
def busy (s : State) : Bit := if s.phase = .idle then 0#1 else 1#1

/-- `line_oe`: the block drives the line (41_start_sequence.md rule R123). -/
def lineOe (s : State) : Bit := if s.phase = .startLow ∨ s.phase = .startHigh then 1#1 else 0#1

/-- `line_out`: the level driven (41_start_sequence.md rule R123). -/
def lineOut (s : State) : Bit := if s.phase = .startHigh then 1#1 else 0#1

/-- `irq = STATUS.DONE AND CONFIG.IE` (45_host_interface.md rule R186). -/
def irq (s : State) : Bit := s.done &&& s.ie

/-- `SUM(F)`: the sum of frame bytes 0 to 3, mod 256 (44_checksum_validator.md rule R160). -/
def frameSum (f : FrameBits) : Byte :=
  BitVec.ofNat 8 ((frameByte f 0).toNat + (frameByte f 1).toNat + (frameByte f 2).toNat + (frameByte f 3).toNat)

/-- `CHECK(F)`: `SUM(F)` equals frame byte 4 (44_checksum_validator.md rule R160). -/
def frameCheck (f : FrameBits) : Bool := frameSum f == frameByte f 4

/-- CMD reads 0 (45_host_interface.md rule R180). -/
def cmdWord : Word := 0#32

/-- `{MTIMEOUT, 6'b0, MLEVEL, IE, THRESH}` (30_encoding.md rule R72, 45_host_interface.md rule R181). -/
def configWord (s : State) : Word := s.mtimeout ++ 0#6 ++ s.mlevel ++ s.ie ++ s.thresh

/-- `{10'b0, BITIDX, 1'b0, ERRPHASE, 1'b0, PHASE, 1'b0, RESULT, 1'b0, CMDERR, DONE, BUSY}` (30_encoding.md rule
R73, 45_host_interface.md rule R182). -/
def statusWord (s : State) : Word :=
  0#10 ++ s.bitidx ++ 0#1 ++ s.errphase ++ 0#1 ++ s.phase.code ++ 0#1 ++ s.result.code ++ 0#1 ++ s.cmderr ++
    s.done ++ busy s

/-- `zext_32(COUNT)` (30_encoding.md rule R74, 45_host_interface.md rule R183). -/
def countWord (s : State) : Word := 0#15 ++ s.count

/-- DATA[39:8] (30_encoding.md rule R75, 45_host_interface.md rule R184). -/
def data0Word (s : State) : Word := frameHigh s.data

/-- `zext_32(DATA[7:0])` (30_encoding.md rule R76, 45_host_interface.md rule R184). -/
def data1Word (s : State) : Word := 0#24 ++ frameByte s.data 4

/-- SHIFT[39:8] (30_encoding.md rule R77, 45_host_interface.md rule R185). -/
def raw0Word (s : State) : Word := frameHigh s.shift

/-- `{15'b0, CHECK(SHIFT), SUM(SHIFT), SHIFT[7:0]}` (30_encoding.md rule R78, 44_checksum_validator.md rule R163,
45_host_interface.md rule R185). -/
def raw1Word (s : State) : Word :=
  0#15 ++ BitVec.ofBool (frameCheck s.shift) ++ frameSum s.shift ++ frameByte s.shift 4

/-- The word of the register at `off[4:2]` (20_memory.md rule R50, 45_host_interface.md rule R179). -/
def registerWord (s : State) (sel : BitVec 3) : Word :=
  if sel = 0#3 then cmdWord
  else if sel = 1#3 then configWord s
  else if sel = 2#3 then statusWord s
  else if sel = 3#3 then countWord s
  else if sel = 4#3 then data0Word s
  else if sel = 5#3 then data1Word s
  else if sel = 6#3 then raw0Word s
  else raw1Word s

end Sys2Proof.Machine
end

