-- ==== Sys2Proof/Machine/Ops.lean ====
section
/-! DEFINITION. The named operations on the state. The block has no memory (20_memory.md rule R50) and no traps
(60_exceptions.md rule R200). What stands in their place: acceptance and rejection of a command, the start of a
chained wait, and the end of a command, which records an outcome in STATUS. `endCommand` is the one shared
operation of rules R202 and R203. -/

namespace Sys2Proof.Machine

/-- `CNT <- c` (40_pulse_timer.md rule R103). -/
def State.setCnt (s : State) (c : TickCount) : State := { s with cnt := c }

/-- `COUNT <- c` (40_pulse_timer.md rule R103). -/
def State.setCount (s : State) (c : TickCount) : State := { s with count := c }

/-- A host read returns `w` (45_host_interface.md rule R179). -/
def State.setRdata (s : State) (w : Word) : State := { s with rdata := w }

/-- `PHASE <- q; CNT <- 0`: the first half of `ENTER` (40_pulse_timer.md rule R104), and a change of phase in the
start sequence (41_start_sequence.md rules R121 and R122). -/
def State.enter (s : State) (q : Phase) : State := { s with phase := q, cnt := 0#17 }

/-- `SHIFT[39 - BITIDX] <- b`, then `BITIDX <- BITIDX + 1` (43_frame_sampler.md rules R142, R144 and R145). -/
def State.storeBit (s : State) (b : Bit) : State :=
  { s with shift := placeBit s.shift s.bitidx b, bitidx := s.bitidx + 1#6 }

/-- `DATA <- SHIFT`, all 40 bits at once (44_checksum_validator.md rule R162). -/
def State.commitData (s : State) : State := { s with data := s.shift }

/-- The end of a command, common to its three procedures (60_exceptions.md rules R202 and R203): the outcome `r`
and the failing phase's code `e` are recorded, DONE is set, and the sequencer returns to IDLE. -/
def State.endCommand (s : State) (r : Result) (e : Code) : State :=
  { s with result := r, errphase := e, done := 1#1, phase := .idle, cnt := 0#17 }

/-- `FAIL(P)`: a timeout in wait phase P (60_exceptions.md rule R202). -/
def State.failWait (s : State) (q : WaitPhase) : State := s.endCommand (timeoutResult q) q.phase.code

/-- `FRAME_END()` (44_checksum_validator.md rule R161). -/
def State.frameEnd (s : State) : State :=
  if frameCheck s.shift then s.commitData.endCommand .valid 0#3 else s.endCommand .checksumMismatch 0#3

/-- `COMPLETE(MEASURE, s)` (40_pulse_timer.md rule R108). -/
def State.completeMeasure (s : State) : State := s.endCommand .measureOk 0#3

/-- `ACCEPT_READ` (45_host_interface.md rule R173). -/
def State.acceptRead (s : State) : State :=
  { s with
    phase := .startLow, cnt := 0#17, shift := 0#40, bitidx := 0#6, count := 0#17, thrS := s.thresh,
    result := .none, errphase := 0#3, done := 0#1, tickgen := 0 }

/-- `ACCEPT_MEASURE` (45_host_interface.md rule R174). -/
def State.acceptMeasure (s : State) : State :=
  { s with
    phase := .measure, cnt := 0#17, mlvlS := s.mlevel, mtoS := s.mtimeout, count := 0#17,
    result := .none, errphase := 0#3, done := 0#1, tickgen := 0 }

/-- `REJECT`: CMDERR is set and nothing else changes (45_host_interface.md rule R175). -/
def State.reject (s : State) : State := { s with cmderr := 1#1 }

/-- A CONFIG write, each field whole (45_host_interface.md rule R176). -/
def State.setConfig (s : State) (mtimeout : BitVec 16) (mlevel ie : Bit) (thresh : Byte) : State :=
  { s with thresh := thresh, ie := ie, mlevel := mlevel, mtimeout := mtimeout }

/-- A STATUS write: a 1 clears the flag (45_host_interface.md rule R177). -/
def State.clearFlags (s : State) (clrCmderr clrDone : Bit) : State :=
  { s with
    done := if clrDone = 1#1 then 0#1 else s.done,
    cmderr := if clrCmderr = 1#1 then 0#1 else s.cmderr }

/-- `Reset`: every piece of the block's state takes its reset value (70_reset_and_hazards.md rule R230). The
outside world's coming events and the draws made are not the block's. -/
def State.resetBlock (s : State) : State := { State.reset with inputs := s.inputs, draws := s.draws }

/-- The outside world's events become `es`. -/
def State.setInputs (s : State) (es : List Event) : State := { s with inputs := es }

/-- One free line sample has been drawn (log entry 3). -/
def State.countDraw (s : State) : State := { s with draws := s.draws + 1 }

/-- `TICKGEN <- n` (10_state.md rule R34). -/
def State.setTickgen (s : State) (n : Nat) : State := { s with tickgen := n }

end Sys2Proof.Machine
end

