-- ==== Sys2Proof/Machine/Command.lean ====
section
/-! DEFINITION. CMD writes (45_host_interface.md rules R171 to R175). -/

namespace Sys2Proof.Machine

/-- NOP: no state changes, whether or not a command runs (45_host_interface.md rule R172). -/
def execNop (_lo : BitVec 2) (_ign : BitVec 29) (s : State) : Answer := .next s

/-- READ: accepted when PHASE = IDLE, else rejected (45_host_interface.md rules R171, R173 and R175). -/
def execRead (_lo : BitVec 2) (_ign : BitVec 29) (s : State) : Answer :=
  .next (if s.phase = .idle then s.acceptRead else s.reject)

/-- MEASURE: accepted when PHASE = IDLE, else rejected (45_host_interface.md rules R171, R174 and R175). -/
def execMeasure (_lo : BitVec 2) (_ign : BitVec 29) (s : State) : Answer :=
  .next (if s.phase = .idle then s.acceptMeasure else s.reject)

/-- CMD_RSV3: rejected in any phase (45_host_interface.md rule R175). -/
def execCmdRsv3 (_lo : BitVec 2) (_ign : BitVec 29) (s : State) : Answer := .next s.reject

/-- CMD_RSV4_7: rejected in any phase (45_host_interface.md rule R175). -/
def execCmdRsv47 (_lo : BitVec 2) (_ign : BitVec 29) (_code : BitVec 2) (s : State) : Answer := .next s.reject

end Sys2Proof.Machine
end

