-- ==== Sys2Proof/Machine/PulseTimer.lean ====
section
/-! DEFINITION. The Pulse Timer (40_pulse_timer.md): its step function, the wait-phase tick rule with its
completion actions, and chaining; and the MEASURE tick. -/

namespace Sys2Proof.Machine

/-- The three results of PT_STEP (40_pulse_timer.md rule R101). -/
inductive PtResult where
  | cont (c : TickCount)
  | finished (c : TickCount)
  | timeout (c : TickCount)
  deriving DecidableEq, Repr

/-- `PT_STEP(s, lvl, bound, cnt)` in either comparison order (40_pulse_timer.md rules R101 and R109). -/
def ptStep (o : CheckOrder) (smp lvl : Bit) (bound : Nat) (cnt : TickCount) : PtResult :=
  if smp ≠ lvl then .finished cnt
  else
    match o with
    | .incrementThenCheck => if bound < (cnt + 1#17).toNat then .timeout (cnt + 1#17) else .cont (cnt + 1#17)
    | .checkThenIncrement => if bound < cnt.toNat then .timeout cnt else .cont (cnt + 1#17)

/-- DOC's `wait_for_level_change(expected_level, timeout_ticks)` (40_pulse_timer.md rules R100 and R102): PT_STEP on
consecutive samples until it no longer answers Continue, with the number of the evaluation that ended the wait.
Nothing is answered where the samples run out first. -/
def waitForLevelChange (o : CheckOrder) (lvl : Bit) (bound : Nat) : List Bit → TickCount → Option (PtResult × Nat)
  | [], _ => none
  | smp :: rest, cnt =>
    match ptStep o smp lvl bound cnt with
    | .cont c =>
      match waitForLevelChange o lvl bound rest c with
      | some (r, n) => some (r, n + 1)
      | none => none
    | r => some (r, 1)

/-- The wait-phase tick rule (40_pulse_timer.md rule R103), with COMPLETE(P, s) of 42_response_detector.md rules
R131 and R132, 43_frame_sampler.md rules R141 and R142, and 40_pulse_timer.md rule R108. `enterWait` is what
ENTER does; it is given by `chainWait`. -/
def evalWait (p : Params) (smp : Bit) (enterWait : WaitPhase → State → State) (q : WaitPhase) (s : State) : State :=
  match ptStep p.order smp (waitLevel s q) (waitBound p s q) s.cnt with
  | .cont c => s.setCnt c
  | .timeout c => (s.setCount c).failWait q
  | .finished c =>
    match q with
    | .ackLow => enterWait .ackHigh (s.setCount c)
    | .ackHigh => enterWait .bitMark (s.setCount c)
    | .bitMark => enterWait .bitHigh (s.setCount c)
    | .bitHigh =>
      let s' := (s.setCount c).storeBit (bitOf s.thrS c)
      if s'.bitidx.toNat = p.nbits then s'.frameEnd else enterWait .bitMark s'
    | .measure => (s.setCount c).completeMeasure

/-- `ENTER(Q, s)` (40_pulse_timer.md rule R104): the sample that ended one wait is the next wait's first
evaluation. That evaluation never completes, because the levels of a READ's waits alternate, "So ENTER recurses
at most once per tick": the inner ENTER is never reached (Laws/PulseTimer.lean proves it). -/
def chainWait (p : Params) (smp : Bit) (q : WaitPhase) (s : State) : State :=
  evalWait p smp (fun _ s' => s') q (s.enter q.phase)

/-- One tick in wait phase `q` (40_pulse_timer.md rules R103 and R104). -/
def waitTick (p : Params) (smp : Bit) (q : WaitPhase) (s : State) : State :=
  evalWait p smp (chainWait p smp) q s

/-- TICK_MEASURE (40_pulse_timer.md rule R107). -/
def execTickMeasure (smp : Bit) (s : State) : Answer := .next (waitTick params smp .measure s)

end Sys2Proof.Machine
end

