-- ==== Sys2Proof/Machine/FrameSampler.lean ====
section
/-! DEFINITION. The Frame Sampler's ticks (43_frame_sampler.md). -/

namespace Sys2Proof.Machine

/-- TICK_BIT_MARK (43_frame_sampler.md rule R141). -/
def execTickBitMark (smp : Bit) (s : State) : Answer := .next (waitTick params smp .bitMark s)

/-- TICK_BIT_HIGH, with FRAME_END after bit 39 (43_frame_sampler.md rule R142, 44_checksum_validator.md rule
R161). -/
def execTickBitHigh (smp : Bit) (s : State) : Answer := .next (waitTick params smp .bitHigh s)

end Sys2Proof.Machine
end

