-- ==== Sys2Proof/Machine/RegisterRead.lean ====
section
/-! DEFINITION. Host reads (45_host_interface.md rules R179 to R185). A read returns its word on `rdata` and
changes nothing else (20_memory.md rule R55). -/

namespace Sys2Proof.Machine

/-- A host read returns the word `w`. -/
def returnWord (w : Word) (s : State) : Answer := .next (s.setRdata w)

/-- RD_CMD (45_host_interface.md rule R180). -/
def execRdCmd (_lo : BitVec 2) (_ign : Word) (s : State) : Answer := returnWord cmdWord s

/-- RD_CONFIG (45_host_interface.md rule R181). -/
def execRdConfig (_lo : BitVec 2) (_ign : Word) (s : State) : Answer := returnWord (configWord s) s

/-- RD_STATUS (45_host_interface.md rule R182). -/
def execRdStatus (_lo : BitVec 2) (_ign : Word) (s : State) : Answer := returnWord (statusWord s) s

/-- RD_COUNT (45_host_interface.md rule R183). -/
def execRdCount (_lo : BitVec 2) (_ign : Word) (s : State) : Answer := returnWord (countWord s) s

/-- RD_DATA0 (45_host_interface.md rule R184). -/
def execRdData0 (_lo : BitVec 2) (_ign : Word) (s : State) : Answer := returnWord (data0Word s) s

/-- RD_DATA1 (45_host_interface.md rule R184). -/
def execRdData1 (_lo : BitVec 2) (_ign : Word) (s : State) : Answer := returnWord (data1Word s) s

/-- RD_RAW0 (45_host_interface.md rule R185). -/
def execRdRaw0 (_lo : BitVec 2) (_ign : Word) (s : State) : Answer := returnWord (raw0Word s) s

/-- RD_RAW1 (45_host_interface.md rule R185). -/
def execRdRaw1 (_lo : BitVec 2) (_ign : Word) (s : State) : Answer := returnWord (raw1Word s) s

end Sys2Proof.Machine
end

