-- ==== Sys2Proof/Machine/RegisterWrite.lean ====
section
/-! DEFINITION. Writes to the registers other than CMD (45_host_interface.md rules R176 to R178). -/

namespace Sys2Proof.Machine

/-- WR_CONFIG: legal at any time; a running command keeps its snapshots (45_host_interface.md rule R176). -/
def execWrConfig (_lo : BitVec 2) (mtimeout : BitVec 16) (_ign : BitVec 6) (mlevel ie : Bit) (thresh : Byte)
    (s : State) : Answer :=
  .next (s.setConfig mtimeout mlevel ie thresh)

/-- WR_STATUS: write 1 to clear DONE and CMDERR (45_host_interface.md rule R177). -/
def execWrStatus (_lo : BitVec 2) (_ign : BitVec 29) (clrCmderr clrDone _ign0 : Bit) (s : State) : Answer :=
  .next (s.clearFlags clrCmderr clrDone)

/-- A write to a read-only register "change[s] no state and raise[s] nothing" (45_host_interface.md rule R178). -/
def ignoreWrite (s : State) : Answer := .next s

/-- WR_COUNT (45_host_interface.md rule R178). -/
def execWrCount (_lo : BitVec 2) (_ign : Word) (s : State) : Answer := ignoreWrite s

/-- WR_DATA0 (45_host_interface.md rule R178). -/
def execWrData0 (_lo : BitVec 2) (_ign : Word) (s : State) : Answer := ignoreWrite s

/-- WR_DATA1 (45_host_interface.md rule R178). -/
def execWrData1 (_lo : BitVec 2) (_ign : Word) (s : State) : Answer := ignoreWrite s

/-- WR_RAW0 (45_host_interface.md rule R178). -/
def execWrRaw0 (_lo : BitVec 2) (_ign : Word) (s : State) : Answer := ignoreWrite s

/-- WR_RAW1 (45_host_interface.md rule R178). -/
def execWrRaw1 (_lo : BitVec 2) (_ign : Word) (s : State) : Answer := ignoreWrite s

end Sys2Proof.Machine
end

