-- ==== Sys2Proof/Machine/ResponseDetector.lean ====
section
/-! DEFINITION. The Response Detector's ticks (42_response_detector.md). -/

namespace Sys2Proof.Machine

/-- TICK_ACK_LOW (42_response_detector.md rule R131). -/
def execTickAckLow (smp : Bit) (s : State) : Answer := .next (waitTick params smp .ackLow s)

/-- TICK_ACK_HIGH (42_response_detector.md rule R132). -/
def execTickAckHigh (smp : Bit) (s : State) : Answer := .next (waitTick params smp .ackHigh s)

end Sys2Proof.Machine
end

