-- ==== Sys2Proof/Machine/StartSequence.lean ====
section
/-! DEFINITION. The IDLE tick (45_host_interface.md rule R188) and the Start Sequence Generator
(41_start_sequence.md). -/

namespace Sys2Proof.Machine

/-- One tick of a driven phase: count, and after `duration` ticks enter `q` (41_start_sequence.md rules R121 and
R122). -/
def driveTick (duration : Nat) (q : Phase) (s : State) : State :=
  if (s.cnt + 1#17).toNat = duration then s.enter q else s.setCnt (s.cnt + 1#17)

/-- TICK_IDLE: no state changes and the sample is ignored (45_host_interface.md rule R188). -/
def execTickIdle (_smp : Bit) (s : State) : Answer := .next s

/-- TICK_START_LOW (41_start_sequence.md rule R121). -/
def execTickStartLow (_smp : Bit) (s : State) : Answer := .next (driveTick params.tStartLow .startHigh s)

/-- TICK_START_HIGH (41_start_sequence.md rule R122). -/
def execTickStartHigh (_smp : Bit) (s : State) : Answer := .next (driveTick params.tStartHigh .ackLow s)

end Sys2Proof.Machine
end

