-- ==== Sys2Proof/Syntax.lean ====
section
/-! DEFINITION. The instructions of the DHTRX: one constructor for each row of spec/opcode_table.json, in the
table's order. Twenty are host bus operations (45_host_interface.md rules R170 to R185) and eight are the
sequencer's tick rules (rule R187). A constructor keeps every bit of its word, the don't-care bits among them:
`lo` is `off[1:0]`, `ign` is a field of `wdata` that the rule ignores. -/

namespace Sys2Proof

inductive Instr where
  /-- NOP: CMD write, CODE 0 (rule R172). -/
  | nop (lo : BitVec 2) (ign : BitVec 29)
  /-- READ: CMD write, CODE 1 (rule R173). -/
  | read (lo : BitVec 2) (ign : BitVec 29)
  /-- MEASURE: CMD write, CODE 2 (rule R174). -/
  | measure (lo : BitVec 2) (ign : BitVec 29)
  /-- CMD_RSV3: CMD write, reserved CODE 3 (rule R175). -/
  | cmdRsv3 (lo : BitVec 2) (ign : BitVec 29)
  /-- CMD_RSV4_7: CMD write, reserved CODE 4 to 7; `code` is CODE[1:0] (rule R175). -/
  | cmdRsv47 (lo : BitVec 2) (ign : BitVec 29) (code : BitVec 2)
  /-- WR_CONFIG (rules R72, R79 and R176); `ign` is `wdata[15:10]`. -/
  | wrConfig (lo : BitVec 2) (mtimeout : BitVec 16) (ign : BitVec 6) (mlevel ie : Bit) (thresh : Byte)
  /-- WR_STATUS (rules R79 and R177); `ign` is `wdata[31:3]` and `ign0` is `wdata[0]`. -/
  | wrStatus (lo : BitVec 2) (ign : BitVec 29) (clrCmderr clrDone ign0 : Bit)
  /-- WR_COUNT (rule R178). -/
  | wrCount (lo : BitVec 2) (ign : Word)
  /-- WR_DATA0 (rule R178). -/
  | wrData0 (lo : BitVec 2) (ign : Word)
  /-- WR_DATA1 (rule R178). -/
  | wrData1 (lo : BitVec 2) (ign : Word)
  /-- WR_RAW0 (rule R178). -/
  | wrRaw0 (lo : BitVec 2) (ign : Word)
  /-- WR_RAW1 (rule R178). -/
  | wrRaw1 (lo : BitVec 2) (ign : Word)
  /-- RD_CMD (rule R180); `ign` is the data part of the request word, 0 for a read. -/
  | rdCmd (lo : BitVec 2) (ign : Word)
  /-- RD_CONFIG (rule R181). -/
  | rdConfig (lo : BitVec 2) (ign : Word)
  /-- RD_STATUS (rule R182). -/
  | rdStatus (lo : BitVec 2) (ign : Word)
  /-- RD_COUNT (rule R183). -/
  | rdCount (lo : BitVec 2) (ign : Word)
  /-- RD_DATA0 (rule R184). -/
  | rdData0 (lo : BitVec 2) (ign : Word)
  /-- RD_DATA1 (rule R184). -/
  | rdData1 (lo : BitVec 2) (ign : Word)
  /-- RD_RAW0 (rule R185). -/
  | rdRaw0 (lo : BitVec 2) (ign : Word)
  /-- RD_RAW1 (rule R185). -/
  | rdRaw1 (lo : BitVec 2) (ign : Word)
  /-- TICK_IDLE with the line sample `smp` (rule R188). -/
  | tickIdle (smp : Bit)
  /-- TICK_START_LOW (41_start_sequence.md rule R121). -/
  | tickStartLow (smp : Bit)
  /-- TICK_START_HIGH (41_start_sequence.md rule R122). -/
  | tickStartHigh (smp : Bit)
  /-- TICK_ACK_LOW (42_response_detector.md rule R131). -/
  | tickAckLow (smp : Bit)
  /-- TICK_ACK_HIGH (42_response_detector.md rule R132). -/
  | tickAckHigh (smp : Bit)
  /-- TICK_BIT_MARK (43_frame_sampler.md rule R141). -/
  | tickBitMark (smp : Bit)
  /-- TICK_BIT_HIGH (43_frame_sampler.md rule R142). -/
  | tickBitHigh (smp : Bit)
  /-- TICK_MEASURE (40_pulse_timer.md rule R107). -/
  | tickMeasure (smp : Bit)
  deriving DecidableEq, Repr

end Sys2Proof
end

