-- ==== Sys2Proof/Machine/Dispatch.lean ====
section
/-! DEFINITION. One arm for each instruction: its meaning. -/

namespace Sys2Proof.Machine

def exec (i : Instr) (s : State) : Host.Outcome State Fault Refusal :=
  match i with
  | .nop lo ign => Sys2Proof.Machine.execNop lo ign s
  | .read lo ign => Sys2Proof.Machine.execRead lo ign s
  | .measure lo ign => Sys2Proof.Machine.execMeasure lo ign s
  | .cmdRsv3 lo ign => Sys2Proof.Machine.execCmdRsv3 lo ign s
  | .cmdRsv47 lo ign code => Sys2Proof.Machine.execCmdRsv47 lo ign code s
  | .wrConfig lo mtimeout ign mlevel ie thresh => Sys2Proof.Machine.execWrConfig lo mtimeout ign mlevel ie thresh s
  | .wrStatus lo ign clrCmderr clrDone ign0 => Sys2Proof.Machine.execWrStatus lo ign clrCmderr clrDone ign0 s
  | .wrCount lo ign => Sys2Proof.Machine.execWrCount lo ign s
  | .wrData0 lo ign => Sys2Proof.Machine.execWrData0 lo ign s
  | .wrData1 lo ign => Sys2Proof.Machine.execWrData1 lo ign s
  | .wrRaw0 lo ign => Sys2Proof.Machine.execWrRaw0 lo ign s
  | .wrRaw1 lo ign => Sys2Proof.Machine.execWrRaw1 lo ign s
  | .rdCmd lo ign => Sys2Proof.Machine.execRdCmd lo ign s
  | .rdConfig lo ign => Sys2Proof.Machine.execRdConfig lo ign s
  | .rdStatus lo ign => Sys2Proof.Machine.execRdStatus lo ign s
  | .rdCount lo ign => Sys2Proof.Machine.execRdCount lo ign s
  | .rdData0 lo ign => Sys2Proof.Machine.execRdData0 lo ign s
  | .rdData1 lo ign => Sys2Proof.Machine.execRdData1 lo ign s
  | .rdRaw0 lo ign => Sys2Proof.Machine.execRdRaw0 lo ign s
  | .rdRaw1 lo ign => Sys2Proof.Machine.execRdRaw1 lo ign s
  | .tickIdle smp => Sys2Proof.Machine.execTickIdle smp s
  | .tickStartLow smp => Sys2Proof.Machine.execTickStartLow smp s
  | .tickStartHigh smp => Sys2Proof.Machine.execTickStartHigh smp s
  | .tickAckLow smp => Sys2Proof.Machine.execTickAckLow smp s
  | .tickAckHigh smp => Sys2Proof.Machine.execTickAckHigh smp s
  | .tickBitMark smp => Sys2Proof.Machine.execTickBitMark smp s
  | .tickBitHigh smp => Sys2Proof.Machine.execTickBitHigh smp s
  | .tickMeasure smp => Sys2Proof.Machine.execTickMeasure smp s

end Sys2Proof.Machine
end

