-- ==== Sys2Proof/WellFormed.lean ====
section
/-! DEFINITION. Which instructions are well formed: the words a host sends. The field widths of Instr already
bound every operand; one check is left: the request word of a read carries data 0 ("`wdata` 0 for a read",
30_encoding.md's introduction). The opcode table's masks leave those data bits out, so the decoder accepts any
value there and the machine ignores it. -/

namespace Sys2Proof

/-- Eight checks, one for each read: its data part is 0 (30_encoding.md's introduction, rule R70). -/
def Instr.wellFormed : Instr → Bool
  | .nop _ _ => true
  | .read _ _ => true
  | .measure _ _ => true
  | .cmdRsv3 _ _ => true
  | .cmdRsv47 _ _ _ => true
  | .wrConfig _ _ _ _ _ _ => true
  | .wrStatus _ _ _ _ _ => true
  | .wrCount _ _ => true
  | .wrData0 _ _ => true
  | .wrData1 _ _ => true
  | .wrRaw0 _ _ => true
  | .wrRaw1 _ _ => true
  | .rdCmd _ ign => ign == 0#32
  | .rdConfig _ ign => ign == 0#32
  | .rdStatus _ ign => ign == 0#32
  | .rdCount _ ign => ign == 0#32
  | .rdData0 _ ign => ign == 0#32
  | .rdData1 _ ign => ign == 0#32
  | .rdRaw0 _ ign => ign == 0#32
  | .rdRaw1 _ ign => ign == 0#32
  | .tickIdle _ => true
  | .tickStartLow _ => true
  | .tickStartHigh _ => true
  | .tickAckLow _ => true
  | .tickAckHigh _ => true
  | .tickBitMark _ => true
  | .tickBitHigh _ => true
  | .tickMeasure _ => true

end Sys2Proof
end

