-- ==== Sys2Proof/Decode.lean ====
section
/-! DEFINITION. From words to instructions and back (30_encoding.md rules R70 to R80 and R82,
spec/opcode_table.json). A host operation is a 38-bit request word `{we, off[4:0], wdata[31:0]}`. A tick is
selected by the 3-bit PHASE code and carries the line sample. -/

namespace Sys2Proof

/-- What the machine decodes: a bus request word, or the PHASE code at the start of a tick with the tick's
line sample (rules R70 and R187). -/
inductive Raw where
  | bus (w : RequestWord)
  | tick (phase : Code) (smp : Bit)
  deriving DecidableEq, Repr

/-- A CMD write by its CODE = `wdata[2:0]` (30_encoding.md rules R71 and R80). -/
def decodeCommand (lo : BitVec 2) (v : Word) : Instr :=
  let ign : BitVec 29 := v.extractLsb' 3 29
  let code : Code := v.extractLsb' 0 3
  if code = 0#3 then .nop lo ign
  else if code = 1#3 then .read lo ign
  else if code = 2#3 then .measure lo ign
  else if code = 3#3 then .cmdRsv3 lo ign
  else .cmdRsv47 lo ign (v.extractLsb' 0 2)

/-- A write by the register `off[4:2]` it selects (30_encoding.md rules R70, R72, R73 and R79,
45_host_interface.md rule R170). -/
def decodeWrite (sel : BitVec 3) (lo : BitVec 2) (v : Word) : Instr :=
  if sel = 0#3 then decodeCommand lo v
  else if sel = 1#3 then
    .wrConfig lo (v.extractLsb' 16 16) (v.extractLsb' 10 6) (v.extractLsb' 9 1) (v.extractLsb' 8 1)
      (v.extractLsb' 0 8)
  else if sel = 2#3 then
    .wrStatus lo (v.extractLsb' 3 29) (v.extractLsb' 2 1) (v.extractLsb' 1 1) (v.extractLsb' 0 1)
  else if sel = 3#3 then .wrCount lo v
  else if sel = 4#3 then .wrData0 lo v
  else if sel = 5#3 then .wrData1 lo v
  else if sel = 6#3 then .wrRaw0 lo v
  else .wrRaw1 lo v

/-- A read by the register `off[4:2]` it selects (30_encoding.md rule R70, 45_host_interface.md rule R179). -/
def decodeRead (sel : BitVec 3) (lo : BitVec 2) (v : Word) : Instr :=
  if sel = 0#3 then .rdCmd lo v
  else if sel = 1#3 then .rdConfig lo v
  else if sel = 2#3 then .rdStatus lo v
  else if sel = 3#3 then .rdCount lo v
  else if sel = 4#3 then .rdData0 lo v
  else if sel = 5#3 then .rdData1 lo v
  else if sel = 6#3 then .rdRaw0 lo v
  else .rdRaw1 lo v

/-- A request word: `we` is bit 37, `off[4:2]` bits 36:34, `off[1:0]` bits 33:32, data bits 31:0
(30_encoding.md rule R70). -/
def decodeBus (w : RequestWord) : Instr :=
  let we : Bit := w.extractLsb' 37 1
  let sel : BitVec 3 := w.extractLsb' 34 3
  let lo : BitVec 2 := w.extractLsb' 32 2
  let v : Word := w.extractLsb' 0 32
  if we = 1#1 then decodeWrite sel lo v else decodeRead sel lo v

/-- The tick rule that a PHASE code selects (30_encoding.md rule R82, 45_host_interface.md rule R187). -/
def decodeTick (phase : Code) (smp : Bit) : Instr :=
  if phase = 0#3 then .tickIdle smp
  else if phase = 1#3 then .tickStartLow smp
  else if phase = 2#3 then .tickStartHigh smp
  else if phase = 3#3 then .tickAckLow smp
  else if phase = 4#3 then .tickAckHigh smp
  else if phase = 5#3 then .tickBitMark smp
  else if phase = 6#3 then .tickBitHigh smp
  else .tickMeasure smp

/-- The decoder. Every request word and every phase code names an instruction: "Every offset in the space names
a register" (20_memory.md rule R50), every CODE has a meaning (30_encoding.md rule R80), and all eight phase
codes are used (rule R82). -/
def decode : Raw → Instr
  | .bus w => decodeBus w
  | .tick phase smp => decodeTick phase smp

/-- Why a list of bytes is no instruction. -/
inductive DecodeError where
  /-- The bytes are neither the five of a request word nor the one of a tick word. -/
  | length (bytes : Nat)
  /-- A bit is set above the 38 bits of a request word, or above the 4 bits of a tick word. -/
  | padding
  deriving DecidableEq, Repr

/-- Five bytes, the first holding bits 7:0 of the request word, or one byte, holding the PHASE code in bits 2:0
and the line sample in bit 3. The byte layout is the model's own (log entry 8): the hardware stores no
instruction. -/
def rawOfBytes : List Byte → Except DecodeError Raw
  | [b] =>
    if b.extractLsb' 4 4 = 0#4 then .ok (.tick (b.extractLsb' 0 3) (b.extractLsb' 3 1)) else .error .padding
  | [b0, b1, b2, b3, b4] =>
    if b4.extractLsb' 6 2 = 0#2 then
      .ok (.bus (b4.extractLsb' 0 6 ++ b3 ++ b2 ++ b1 ++ b0))
    else .error .padding
  | bs => .error (.length bs.length)

/-- The decoder on bytes: total, and rejecting by name. -/
def decodeBytes (bs : List Byte) : Except DecodeError Instr :=
  match rawOfBytes bs with
  | .ok r => .ok (decode r)
  | .error e => .error e

/-- The bytes of the number `w`, `n` of them, the least significant first. -/
def bytesOfNat : Nat → Nat → List Byte
  | 0, _ => []
  | n + 1, w => BitVec.ofNat 8 w :: bytesOfNat n (w / 256)

/-- The bytes that hold an opcode table's word of `nbits` bits. -/
def tableBytes (nbits w : Nat) : List Byte := bytesOfNat ((nbits + 7) / 8) w

/-- The instruction the decoder reads from a word as spec/opcode_table.json numbers its bits. -/
def decodeTableWord (nbits w : Nat) : Option Instr :=
  match decodeBytes (tableBytes nbits w) with
  | .ok i => some i
  | .error _ => none

/-- A request word from its fields (30_encoding.md rule R70). -/
def requestWord (we : Bit) (sel : BitVec 3) (lo : BitVec 2) (v : Word) : RequestWord :=
  we ++ sel ++ lo ++ v

/-- The encoder, written from the encoding column of spec/opcode_table.json and 30_encoding.md rules R70 to
R73, R80 and R82. -/
def encode : Instr → Raw
  | .nop lo ign => .bus (requestWord 1#1 0#3 lo (ign ++ 0b000#3))
  | .read lo ign => .bus (requestWord 1#1 0#3 lo (ign ++ 0b001#3))
  | .measure lo ign => .bus (requestWord 1#1 0#3 lo (ign ++ 0b010#3))
  | .cmdRsv3 lo ign => .bus (requestWord 1#1 0#3 lo (ign ++ 0b011#3))
  | .cmdRsv47 lo ign code => .bus (requestWord 1#1 0#3 lo (ign ++ 1#1 ++ code))
  | .wrConfig lo mtimeout ign mlevel ie thresh =>
    .bus (requestWord 1#1 1#3 lo (mtimeout ++ ign ++ mlevel ++ ie ++ thresh))
  | .wrStatus lo ign clrCmderr clrDone ign0 =>
    .bus (requestWord 1#1 2#3 lo (ign ++ clrCmderr ++ clrDone ++ ign0))
  | .wrCount lo ign => .bus (requestWord 1#1 3#3 lo ign)
  | .wrData0 lo ign => .bus (requestWord 1#1 4#3 lo ign)
  | .wrData1 lo ign => .bus (requestWord 1#1 5#3 lo ign)
  | .wrRaw0 lo ign => .bus (requestWord 1#1 6#3 lo ign)
  | .wrRaw1 lo ign => .bus (requestWord 1#1 7#3 lo ign)
  | .rdCmd lo ign => .bus (requestWord 0#1 0#3 lo ign)
  | .rdConfig lo ign => .bus (requestWord 0#1 1#3 lo ign)
  | .rdStatus lo ign => .bus (requestWord 0#1 2#3 lo ign)
  | .rdCount lo ign => .bus (requestWord 0#1 3#3 lo ign)
  | .rdData0 lo ign => .bus (requestWord 0#1 4#3 lo ign)
  | .rdData1 lo ign => .bus (requestWord 0#1 5#3 lo ign)
  | .rdRaw0 lo ign => .bus (requestWord 0#1 6#3 lo ign)
  | .rdRaw1 lo ign => .bus (requestWord 0#1 7#3 lo ign)
  | .tickIdle smp => .tick 0b000#3 smp
  | .tickStartLow smp => .tick 0b001#3 smp
  | .tickStartHigh smp => .tick 0b010#3 smp
  | .tickAckLow smp => .tick 0b011#3 smp
  | .tickAckHigh smp => .tick 0b100#3 smp
  | .tickBitMark smp => .tick 0b101#3 smp
  | .tickBitHigh smp => .tick 0b110#3 smp
  | .tickMeasure smp => .tick 0b111#3 smp

/-- The bytes of an encoded instruction, in the layout of `rawOfBytes`. -/
def bytesOfRaw : Raw → List Byte
  | .tick phase smp => [0#4 ++ smp ++ phase]
  | .bus w =>
    [w.extractLsb' 0 8, w.extractLsb' 8 8, w.extractLsb' 16 8, w.extractLsb' 24 8, 0#2 ++ w.extractLsb' 32 6]

/-- One row of spec/opcode_table.json: its word's fixed bits and their values. -/
structure Row where
  mask : Nat
  value : Nat
  deriving DecidableEq, Repr

/-- The row of spec/opcode_table.json that an instruction belongs to ("mask" and "match", copied from the
table). -/
def Instr.row : Instr → Row
  | .nop _ _ => ⟨0x3C00000007, 0x2000000000⟩
  | .read _ _ => ⟨0x3C00000007, 0x2000000001⟩
  | .measure _ _ => ⟨0x3C00000007, 0x2000000002⟩
  | .cmdRsv3 _ _ => ⟨0x3C00000007, 0x2000000003⟩
  | .cmdRsv47 _ _ _ => ⟨0x3C00000004, 0x2000000004⟩
  | .wrConfig _ _ _ _ _ _ => ⟨0x3C00000000, 0x2400000000⟩
  | .wrStatus _ _ _ _ _ => ⟨0x3C00000000, 0x2800000000⟩
  | .wrCount _ _ => ⟨0x3C00000000, 0x2C00000000⟩
  | .wrData0 _ _ => ⟨0x3C00000000, 0x3000000000⟩
  | .wrData1 _ _ => ⟨0x3C00000000, 0x3400000000⟩
  | .wrRaw0 _ _ => ⟨0x3C00000000, 0x3800000000⟩
  | .wrRaw1 _ _ => ⟨0x3C00000000, 0x3C00000000⟩
  | .rdCmd _ _ => ⟨0x3C00000000, 0x0000000000⟩
  | .rdConfig _ _ => ⟨0x3C00000000, 0x0400000000⟩
  | .rdStatus _ _ => ⟨0x3C00000000, 0x0800000000⟩
  | .rdCount _ _ => ⟨0x3C00000000, 0x0C00000000⟩
  | .rdData0 _ _ => ⟨0x3C00000000, 0x1000000000⟩
  | .rdData1 _ _ => ⟨0x3C00000000, 0x1400000000⟩
  | .rdRaw0 _ _ => ⟨0x3C00000000, 0x1800000000⟩
  | .rdRaw1 _ _ => ⟨0x3C00000000, 0x1C00000000⟩
  | .tickIdle _ => ⟨0x7, 0x0⟩
  | .tickStartLow _ => ⟨0x7, 0x1⟩
  | .tickStartHigh _ => ⟨0x7, 0x2⟩
  | .tickAckLow _ => ⟨0x7, 0x3⟩
  | .tickAckHigh _ => ⟨0x7, 0x4⟩
  | .tickBitMark _ => ⟨0x7, 0x5⟩
  | .tickBitHigh _ => ⟨0x7, 0x6⟩
  | .tickMeasure _ => ⟨0x7, 0x7⟩

/-- An encoded instruction as a number, its bits numbered as spec/opcode_table.json numbers them. -/
def Raw.number : Raw → Nat
  | .bus w => w.toNat
  | .tick phase _ => phase.toNat

end Sys2Proof
end

