-- ==== Sys2Proof/Machine/Fetch.lean ====
section
/-! DEFINITION. What the machine does next. The block fetches no instructions (10_state.md rule R21,
20_memory.md rule R59): the next event of the outside world is a tick, a host access, a reset or a clock
(00_scope.md rule R8). A tick's instruction is chosen by PHASE (45_host_interface.md rule R187), a host access's by
its request word (30_encoding.md rule R70). -/

namespace Sys2Proof.Machine

/-- What the next event asks for: an instruction to run, a move that is no instruction, or a refusal. -/
inductive Fetched where
  | instr (r : Raw) (s : State)
  | moved (s : State)
  | declined (r : Refusal)
  deriving DecidableEq, Repr

/-- One clock of TICKGEN: it produces a tick once every `TICK_PERIOD_NS` (10_state.md rule R34). The tick it
produces is the very next event, so it comes before the host access of the same clock (92_eei_decisions.md
D19). DESIGN CHOICE (log entry 6): the tick falls in the clock that completes the period, and where the divisor is 0
(a clock slower than the tick, for which the spec gives no rule) every clock produces a tick, as with divisor 1. -/
def State.clockEdge (p : Params) (smp : Bit) (s : State) : State :=
  if s.tickgen + 1 < clocksPerTick p then s.setTickgen (s.tickgen + 1)
  else (s.setTickgen 0).setInputs (.tick smp :: s.inputs)

/-- The next event, taken off `inputs`. Where the outside world has placed none, time passes: a tick comes, with
a free line sample (log entries 3 and 4). -/
def fetch (s : State) : Fetched :=
  match s.inputs with
  | [] => .instr (.tick s.phase.code (Config.freeSample s.draws)) s.countDraw
  | .tick smp :: es => .instr (.tick s.phase.code smp) (s.setInputs es)
  | .access a :: es =>
    if a.width = params.regWidth then .instr (.bus a.word) (s.setInputs es) else .declined (.accessWidth a.width)
  | .reset :: es => .moved (s.setInputs es).resetBlock
  | .clock smp :: es => .moved ((s.setInputs es).clockEdge params smp)

/-- `s` with what makes `fetch` give `r`: the host's access, or the phase and a tick. -/
def State.withRaw (s : State) : Raw → State
  | .bus w =>
    s.setInputs (.access ⟨32, w.extractLsb' 37 1, w.extractLsb' 32 5, w.extractLsb' 0 32⟩ :: s.inputs)
  | .tick phase smp => { s with phase := Phase.ofCode phase, inputs := .tick smp :: s.inputs }

/-- `s` with an opcode table's word placed as the next thing to run. Bytes that are no instruction place
nothing. -/
def State.placeTableWord (s : State) (nbits w : Nat) : State :=
  match rawOfBytes (tableBytes nbits w) with
  | .ok r => s.withRaw r
  | .error _ => s

end Sys2Proof.Machine
end

