-- ==== Sys2Proof/Machine/Step.lean ====
section
/-! DEFINITION. One step: one event of 00_scope.md rule R8. A tick or a host access runs the instruction its word
decodes to; a reset or a clock of the prescaler moves the state; a host access of a width other than 32 bits is
refused by name (20_memory.md rule R51). -/

namespace Sys2Proof.Machine

def step (s : State) : Host.Outcome State Fault Refusal :=
  match fetch s with
  | .instr r s' => exec (decode r) s'
  | .moved s' => .next s'
  | .declined r => .refused r

/-- `s` with the instruction of an opcode-table word placed where `step` finds its next one: the host's access at
the head of the events, or PHASE and a tick at the head of the events. -/
def State.withFetchWord (s : State) (nbits w : Nat) : State := s.placeTableWord nbits w

end Sys2Proof.Machine
end

