-- ==== Sys2Proof/Machine/Clock.lean ====
section
/-! DEFINITION. Events in the same clock (60_exceptions.md rule R206, 92_eei_decisions.md D19): reset dominates;
otherwise the tick, if the prescaler produces one, comes first and the host access second. -/

namespace Sys2Proof.Machine

/-- The inputs of the block in one clock (10_state.md rules R32 and R33). -/
structure ClockInputs where
  rst : Bit
  lineIn : Bit
  access : Option Access
  deriving DecidableEq, Repr

/-- The events of one clock, in their order. A host access in a clock in which `rst` is asserted is lost
(70_reset_and_hazards.md rule R230). -/
def ClockInputs.events (c : ClockInputs) : List Event :=
  if c.rst = 1#1 then [.reset]
  else
    match c.access with
    | some a => [.clock c.lineIn, .access a]
    | none => [.clock c.lineIn]

/-- The events of a sequence of clocks. -/
def clockEvents (cs : List ClockInputs) : List Event := cs.flatMap ClockInputs.events

end Sys2Proof.Machine
end

