-- ==== Sys2Proof/Machine/Run.lean ====
section
/-! DEFINITION. The sequencer over many ticks, for any build `p` (45_host_interface.md rule R187, 00_scope.md rule
R9), and what an observer sees of a run (70_reset_and_hazards.md rule R248). -/

namespace Sys2Proof.Machine

/-- `Tick(s)`: the one phase rule chosen by PHASE at the start of the tick (45_host_interface.md rule R187). -/
def tick (p : Params) (smp : Bit) (s : State) : State :=
  match s.phase with
  | .idle => s
  | .startLow => driveTick p.tStartLow .startHigh s
  | .startHigh => driveTick p.tStartHigh .ackLow s
  | .ackLow => waitTick p smp .ackLow s
  | .ackHigh => waitTick p smp .ackHigh s
  | .bitMark => waitTick p smp .bitMark s
  | .bitHigh => waitTick p smp .bitHigh s
  | .measure => waitTick p smp .measure s

/-- The ticks of a list of line samples, the first sample first. -/
def ticks (p : Params) : List Bit → State → State
  | [], s => s
  | smp :: rest, s => ticks p rest (tick p smp s)

/-- The line outputs, `line_oe` and `line_out`, after each tick (70_reset_and_hazards.md rule R248). -/
def lineTrace (p : Params) : List Bit → State → List (Bit × Bit)
  | [], _ => []
  | smp :: rest, s =>
    let s' := tick p smp s
    (lineOe s', lineOut s') :: lineTrace p rest s'

/-- A command's run has ended: PHASE = IDLE and DONE = 1 (70_reset_and_hazards.md rule R248). -/
def runEnded (s : State) : Bool := s.phase == .idle && s.done == 1#1

/-- The observation of an accepted command's run (70_reset_and_hazards.md rule R248) with no host access between its
ticks, for any build: the state at its end and the trace of the line outputs per tick; nothing if it has not ended
within the samples given. Observe.lean has the run of any CMD write, with any events between its ticks. -/
def observeRun (p : Params) : List Bit → State → Option (State × List (Bit × Bit))
  | [], _ => none
  | smp :: rest, s =>
    let s' := tick p smp s
    if runEnded s' then some (s', [(lineOe s', lineOut s')])
    else
      match observeRun p rest s' with
      | some (e, tr) => some (e, (lineOe s', lineOut s') :: tr)
      | none => none

/-- A waveform: segments `level × duration`, each a half-open interval of time (00_scope.md rule R9). -/
abbrev Waveform := List (Bit × Nat)

/-- The level at each microsecond from acceptance. -/
def Waveform.levels : Waveform → List Bit
  | [] => []
  | (level, duration) :: rest => List.replicate duration level ++ Waveform.levels rest

/-- The samples of ticks 1, 2, …: "A sample at tick k sees the segment that contains time k", and the level at
time 0 is never sampled (00_scope.md rule R9, 40_pulse_timer.md rules R105 and R107). -/
def Waveform.samples (w : Waveform) : List Bit := w.levels.drop 1

/-- The largest number of ticks a READ can take (60_exceptions.md rule R214). In the other comparison order each of its
waits may last one tick longer (40_pulse_timer.md rule R109, 95_test_vectors.md V-TM-3). -/
def readBound (p : Params) : Nat :=
  p.tStartLow + p.tStartHigh + (p.toAckLow + p.slack + 1) + (p.toAckHigh + p.slack) +
    p.nbits * ((p.toMark + p.slack) + (p.toHigh + p.slack))

end Sys2Proof.Machine
end

