-- ==== Sys2Proof/Machine/Script.lean ====
section
/-! DEFINITION. The host agent: host programs in the notation of 00_scope.md rules R10 and R11, run on the
machine's own `step`. -/

namespace Sys2Proof.Machine

/-- A statement of a host program (00_scope.md rule R10), and the one pseudo-instruction of rule R11 that is a
loop. -/
inductive Stmt where
  | wr (off : Offset) (v : Word)
  | rd (off : Offset) (name : String)
  | ticks (n : Nat)
  | expect (name : String) (v : Word)
  | waitDone (name : String)
  deriving DecidableEq, Repr

/-- `NOP = WR 0x00, 0x00000000` (00_scope.md rule R11). -/
def Stmt.nop : Stmt := .wr 0x00#5 0x00000000#32

/-- `READ = WR 0x00, 0x00000001` (00_scope.md rule R11). -/
def Stmt.read : Stmt := .wr 0x00#5 0x00000001#32

/-- `MEASURE = WR 0x00, 0x00000002` (00_scope.md rule R11). -/
def Stmt.measure : Stmt := .wr 0x00#5 0x00000002#32

/-- `CLRDONE = WR 0x08, 0x00000002` (00_scope.md rule R11). -/
def Stmt.clrDone : Stmt := .wr 0x08#5 0x00000002#32

/-- `CLRERR = WR 0x08, 0x00000004` (00_scope.md rule R11). -/
def Stmt.clrErr : Stmt := .wr 0x08#5 0x00000004#32

/-- `SETCFG thr, ie, lvl, to = WR 0x04, (to << 16) | (lvl << 9) | (ie << 8) | thr` (00_scope.md rule R11). -/
def Stmt.setCfg (thr : Byte) (ie lvl : Bit) (timeout : BitVec 16) : Stmt :=
  .wr 0x04#5 ((timeout.setWidth 32 <<< 16) ||| (lvl.setWidth 32 <<< 9) ||| (ie.setWidth 32 <<< 8) ||| thr.setWidth 32)

/-- The host agent's side of a run: the machine, the names it has read words into, and the samples the
environment will supply, the next tick's first. -/
structure HostRun where
  machine : State
  names : List (String × Word)
  line : List Bit
  deriving DecidableEq, Repr

/-- Why a host program ends before its last statement. -/
inductive ScriptStop where
  /-- An `EXPECT` found another value, or a name that no `RD` has set. -/
  | unexpected (name : String)
  /-- The machine declined an access. -/
  | declined (r : Refusal)
  /-- A `WAITDONE` loop did not end within its fuel. -/
  | fuel
  deriving DecidableEq, Repr

/-- One step of the machine with the events `es` waiting. -/
def HostRun.advance (h : HostRun) (es : List Event) : Except ScriptStop HostRun :=
  match step (h.machine.setInputs es) with
  | .next s => .ok { h with machine := s }
  | .refused r => .error (.declined r)
  | .fault r => nomatch r

/-- One tick, with the waveform's next sample; past its end the sample is free. -/
def HostRun.tick (h : HostRun) : Except ScriptStop HostRun :=
  match h.line with
  | [] => h.advance []
  | smp :: rest => HostRun.advance { h with line := rest } [.tick smp]

/-- `TICKS n` (00_scope.md rule R10). -/
def HostRun.ticks : Nat → HostRun → Except ScriptStop HostRun
  | 0, h => .ok h
  | n + 1, h =>
    match h.tick with
    | .ok h' => HostRun.ticks n h'
    | .error e => .error e

/-- `RD off -> name` (00_scope.md rule R10). -/
def HostRun.rd (h : HostRun) (off : Offset) (name : String) : Except ScriptStop HostRun :=
  match h.advance [.access (hostRead off)] with
  | .ok h' => .ok { h' with names := (name, h'.machine.rdata) :: h'.names }
  | .error e => .error e

/-- `loop: RD 0x08 -> s; if s[1] == 0 then TICKS 1; goto loop` (00_scope.md rule R11). -/
def HostRun.waitDone (name : String) : Nat → HostRun → Except ScriptStop HostRun
  | 0, _ => .error .fuel
  | n + 1, h =>
    match h.rd 0x08#5 name with
    | .error e => .error e
    | .ok h' =>
      if h'.machine.rdata.extractLsb' 1 1 = 0#1 then
        match h'.tick with
        | .ok h'' => HostRun.waitDone name n h''
        | .error e => .error e
      else .ok h'

/-- One statement; `fuel` bounds a `WAITDONE` loop. -/
def HostRun.stmt (fuel : Nat) (h : HostRun) : Stmt → Except ScriptStop HostRun
  | .wr off v => h.advance [.access (hostWrite off v)]
  | .rd off name => h.rd off name
  | .ticks n => h.ticks n
  | .expect name v => if h.names.lookup name = some v then .ok h else .error (.unexpected name)
  | .waitDone name => h.waitDone name fuel

/-- A host program, "a list of statements, executed in order by the host agent" (00_scope.md rule R10). -/
def HostRun.script (fuel : Nat) : List Stmt → HostRun → Except ScriptStop HostRun
  | [], h => .ok h
  | t :: rest, h =>
    match h.stmt fuel t with
    | .ok h' => HostRun.script fuel rest h'
    | .error e => .error e

end Sys2Proof.Machine
end

