-- ==== Sys2Proof/Safety.lean ====
section
/-! DEFINITION. The terms claims use: the invariant of the machine, the duties of the host and of the environment
(70_reset_and_hazards.md rules R234, R240 and R245), and a sensor's frame as a sequence of line samples
(30_encoding.md rules R84 and R85). -/

namespace Sys2Proof.Safety

open Sys2Proof.Machine

/-- CNT is in the range of its phase (10_state.md rule R24, 40_pulse_timer.md rules R101 and R104,
43_frame_sampler.md rule R148): 0 in IDLE, below the duration in a driven phase, at most the bound in a wait (one
more in the other comparison order, rule R109), and at least 1 in a chained wait. -/
abbrev CntInPhase (p : Params) (s : State) : Prop :=
  (s.phase = .idle → s.cnt = 0#17) ∧
  (s.phase = .startLow → s.cnt.toNat < p.tStartLow) ∧
  (s.phase = .startHigh → s.cnt.toNat < p.tStartHigh) ∧
  (s.phase = .ackLow → s.cnt.toNat ≤ p.toAckLow + p.slack) ∧
  (s.phase = .ackHigh → 1 ≤ s.cnt.toNat ∧ s.cnt.toNat ≤ p.toAckHigh + p.slack) ∧
  (s.phase = .bitMark → 1 ≤ s.cnt.toNat ∧ s.cnt.toNat ≤ p.toMark + p.slack) ∧
  (s.phase = .bitHigh → 1 ≤ s.cnt.toNat ∧ s.cnt.toNat ≤ p.toHigh + p.slack) ∧
  (s.phase = .measure → s.cnt.toNat ≤ s.mtoS.toNat + p.slack)

/-- BITIDX counts the completed bits (10_state.md rule R25, 43_frame_sampler.md rule R145), and the bits of SHIFT
not yet sampled are 0 (43_frame_sampler.md rules R146 and R147). -/
abbrev BitsInPhase (s : State) : Prop :=
  s.bitidx.toNat ≤ 40 ∧
  (s.phase = .startLow ∨ s.phase = .startHigh ∨ s.phase = .ackLow ∨ s.phase = .ackHigh → s.bitidx = 0#6) ∧
  (s.phase = .bitMark ∨ s.phase = .bitHigh → s.bitidx.toNat < 40) ∧
  ∀ j : Fin 40, j.val + s.bitidx.toNat < 40 → s.shift.getLsbD j.val = false

/-- What STATUS, COUNT and BITIDX record of the last command (60_exceptions.md rules R201 and R204, 30_encoding.md
rule R83): nothing while a command runs; else the outcome, and for a timeout the phase that failed and the count
`bound + 1`. -/
abbrev OutcomeRecorded (p : Params) (s : State) : Prop :=
  (s.phase ≠ .idle → s.done = 0#1 ∧ s.result = .none) ∧
  (s.done = 1#1 → s.result ≠ .none) ∧
  (s.result = .none → s.errphase = 0#3) ∧
  (s.result = .valid → s.errphase = 0#3 ∧ s.bitidx = 40#6 ∧ s.data = s.shift ∧ frameCheck s.shift = true) ∧
  (s.result = .checksumMismatch → s.errphase = 0#3 ∧ s.bitidx = 40#6 ∧ frameCheck s.shift = false) ∧
  (s.result = .responseTimeout →
    s.bitidx = 0#6 ∧
      (s.errphase = 3#3 ∧ s.count.toNat = p.toAckLow + 1 ∨ s.errphase = 4#3 ∧ s.count.toNat = p.toAckHigh + 1)) ∧
  (s.result = .bitTimeout →
    s.bitidx.toNat < 40 ∧
      (s.errphase = 5#3 ∧ s.count.toNat = p.toMark + 1 ∨ s.errphase = 6#3 ∧ s.count.toNat = p.toHigh + 1)) ∧
  (s.result = .measureOk → s.errphase = 0#3 ∧ s.count.toNat ≤ s.mtoS.toNat + p.slack) ∧
  (s.result = .measureTimeout → s.errphase = 7#3 ∧ s.count.toNat = s.mtoS.toNat + 1)

/-- DATA holds a frame that passed the checksum, or 0, which passes it too (10_state.md rule R27,
44_checksum_validator.md rules R162 and R164). -/
abbrev DataChecked (s : State) : Prop := frameCheck s.data = true

/-- The invariant of the machine. -/
abbrev Inv (p : Params) (s : State) : Prop :=
  CntInPhase p s ∧ BitsInPhase s ∧ OutcomeRecorded p s ∧ DataChecked s

/-- The next event is a tick with sample `smp`, placed by the outside world or drawn (log entry 4). -/
def nextTick (s : State) : Option Bit :=
  match s.inputs with
  | [] => some (Config.freeSample s.draws)
  | .tick smp :: _ => some smp
  | .access _ :: _ => none
  | .reset :: _ => none
  | .clock _ :: _ => none

/-- The next event is a reset. -/
def nextIsReset (s : State) : Bool := s.inputs.head? == some .reset

/-- The next event is a 32-bit host write of `v` to the register `sel`. -/
def nextIsWrite (s : State) (sel : BitVec 3) (v : Word) : Prop :=
  ∃ a, s.inputs.head? = some (.access a) ∧ a.width = 32 ∧ a.we = 1#1 ∧ a.off.extractLsb' 2 3 = sel ∧ a.wdata = v

/-- The host's duty of 70_reset_and_hazards.md rule R245: READ acceptances, as times in microseconds, lie
`MIN_INTERVAL_US` apart. The block does not enforce it. -/
def readsSpaced (p : Params) : List Nat → Bool
  | [] => true
  | [_] => true
  | t :: u :: rest => decide (t + p.minIntervalUs ≤ u) && readsSpaced p (u :: rest)

/-- The host's duty of 70_reset_and_hazards.md rule R234: no READ before the sensor has settled. The block does
not enforce it. -/
def settledBefore (times : List Nat) : Bool := times.all (fun t => decide (Config.sensorSettleUs ≤ t))

/-- What a sensor sends after the release of the line, as counts of samples: the acknowledgment pulses, then for
each bit its marker and its high pulse (30_encoding.md rule R85). -/
structure SensorFrame where
  ackLow : Nat
  ackHigh : Nat
  bits : List (Nat × Nat)
  deriving DecidableEq, Repr

/-- The samples of a sensor's frame, from the tick after the release, with the low sample that ends the last high
pulse (43_frame_sampler.md rule R150). -/
def SensorFrame.samples (f : SensorFrame) : List Bit :=
  List.replicate f.ackLow 0#1 ++ List.replicate f.ackHigh 1#1 ++
    f.bits.flatMap (fun b => List.replicate b.1 0#1 ++ List.replicate b.2 1#1) ++ [0#1]

/-- The environment's timing duty of 70_reset_and_hazards.md rule R240, in samples: every pulse within its
bound, and 40 bits. In the other comparison order a pulse may be one sample longer (40_pulse_timer.md rule R109). -/
abbrev SensorFrame.inTolerance (p : Params) (f : SensorFrame) : Prop :=
  f.ackLow ≤ p.toAckLow + p.slack ∧ 1 ≤ f.ackHigh ∧ f.ackHigh ≤ p.toAckHigh + p.slack ∧ f.bits.length = 40 ∧
  ∀ b ∈ f.bits, 1 ≤ b.1 ∧ b.1 ≤ p.toMark + p.slack ∧ 1 ≤ b.2 ∧ b.2 ≤ p.toHigh + p.slack

/-- The frame a sensor's pulses stand for, most significant bit first: a bit is 1 iff its high count exceeds the
threshold (30_encoding.md rules R84 and R85, 43_frame_sampler.md rule R143). -/
def pulseFrame (thr : Nat) (bits : List (Nat × Nat)) : FrameBits :=
  bits.foldl (fun f b => (f <<< 1) ||| (if thr < b.2 then 1#40 else 0#40)) 0#40

end Sys2Proof.Safety
end

