-- ==== Sys2Proof/Certificates/Slice0/Obligations.lean ====
section
/-! DEFINITION. The statements for the provers. Each docstring names the rules of spec/ it formalises. A statement
about a next state gives the whole of it, so what the instruction leaves unchanged (its frame) is part of it. The
block has no memory (20_memory.md rule R50): its frame is the state's other fields. -/

open Sys2Proof Sys2Proof.Machine Sys2Proof.Safety

/-! Encodings -/

/-- Decoding an encoded instruction gives it back, with every operand at every value and every don't-care bit
(30_encoding.md rules R70 to R73, R80 and R82). -/
def Obligations.DecodeOfEncodeIsIdentity : Prop := ∀ i : Instr, decode (encode i) = i

/-- Encoding a decoded word gives it back: no bit of a request word or of a tick word is dropped, and no two words
share a meaning. -/
def Obligations.EncodeOfDecodeIsIdentity : Prop := ∀ r : Raw, encode (decode r) = r

/-- The decoder on bytes reads an encoded instruction back and rejects every other list of bytes by name. The byte
layout is the model's own (log entry 8). -/
def Obligations.BytesDecodeOrAreRejectedByName : Prop :=
  (∀ i : Instr, decodeBytes (bytesOfRaw (encode i)) = .ok i) ∧
  (∀ bs : List Byte, bs.length ≠ 1 → bs.length ≠ 5 → decodeBytes bs = .error (.length bs.length)) ∧
  (∀ b : Byte, 16 ≤ b.toNat → decodeBytes [b] = .error .padding) ∧
  (∀ b0 b1 b2 b3 b4 : Byte, 64 ≤ b4.toNat → decodeBytes [b0, b1, b2, b3, b4] = .error .padding)

/-- Words written out from 30_encoding.md rules R70 to R73, R80 and R82 decode to the instructions they stand
for. -/
def Obligations.TableWordsDecode : Prop :=
  decode (.bus (0b1_00000#6 ++ 0x00000000#32)) = .nop 0#2 0#29 ∧
  decode (.bus (0b1_00000#6 ++ 0xFFFFFFF9#32)) = .read 0#2 0x1FFFFFFF#29 ∧
  decode (.bus (0b1_00011#6 ++ 0x00000002#32)) = .measure 3#2 0#29 ∧
  decode (.bus (0b1_00100#6 ++ 0x0064021E#32)) = .wrConfig 0#2 100#16 0#6 1#1 0#1 30#8 ∧
  decode (.bus (0b1_01000#6 ++ 0x00000002#32)) = .wrStatus 0#2 0#29 0#1 1#1 0#1 ∧
  decode (.bus (0b1_01100#6 ++ 0x00000005#32)) = .wrCount 0#2 5#32 ∧
  decode (.bus (0b0_10001#6 ++ 0x00000000#32)) = .rdData0 1#2 0#32 ∧
  decode (.bus (0b0_11100#6 ++ 0x00000000#32)) = .rdRaw1 0#2 0#32 ∧
  decode (.tick 0b001#3 0#1) = .tickStartLow 0#1 ∧
  decode (.tick 0b110#3 1#1) = .tickBitHigh 1#1

/-- `SETCFG thr, ie, lvl, to` writes its four operands to their fields (00_scope.md rule R11). -/
def Obligations.SetCfgWritesItsFields : Prop :=
  ∀ (thr : Byte) (ie lvl : Bit) (timeout : BitVec 16), ∃ off v,
    Stmt.setCfg thr ie lvl timeout = .wr off v ∧
    decode (.bus (hostWrite off v).word) = .wrConfig 0#2 timeout 0#6 lvl ie thr

/-! The step -/

/-- A step runs the instruction its event's word decodes to, on the state with the event taken off. With no event
waiting, a tick comes with a free sample, whatever it is (log entries 3 and 4). -/
def Obligations.StepRunsTheDecodedInstruction : Prop :=
  (∀ (s : State) (a : Access) (es : List Event), s.inputs = .access a :: es → a.width = 32 →
    step s = exec (decode (.bus a.word)) { s with inputs := es }) ∧
  (∀ (s : State) (smp : Bit) (es : List Event), s.inputs = .tick smp :: es →
    step s = exec (decode (.tick s.phase.code smp)) { s with inputs := es }) ∧
  (∀ s : State, s.inputs = [] →
    step s = exec (decode (.tick s.phase.code (Config.freeSample s.draws))) { s with draws := s.draws + 1 })

/-- An opcode table's word that is placed for fetching is what the next step runs: a request word on the state as
it was, a tick word on the state with its phase. The placing of a word and its byte layout are the model's own choices
(log entries 4 and 8): the block fetches and stores no instruction. -/
def Obligations.PlacedWordRunsNext : Prop :=
  (∀ (s : State) (nbits w : Nat) (r : RequestWord), rawOfBytes (tableBytes nbits w) = .ok (.bus r) →
    step (s.withFetchWord nbits w) = exec (decodeBus r) s) ∧
  (∀ (s : State) (nbits w : Nat) (c : Code) (smp : Bit), rawOfBytes (tableBytes nbits w) = .ok (.tick c smp) →
    step (s.withFetchWord nbits w) = exec (decodeTick c smp) { s with phase := Phase.ofCode c })

/-- Tick dispatch: the rule is chosen by PHASE at the start of the tick (45_host_interface.md rule R187). -/
def Obligations.TickRunsTheRuleOfItsPhase : Prop :=
  ∀ (s : State) (smp : Bit) (es : List Event), s.inputs = .tick smp :: es →
    (s.phase = .idle → step s = exec (.tickIdle smp) { s with inputs := es }) ∧
    (s.phase = .startLow → step s = exec (.tickStartLow smp) { s with inputs := es }) ∧
    (s.phase = .startHigh → step s = exec (.tickStartHigh smp) { s with inputs := es }) ∧
    (s.phase = .ackLow → step s = exec (.tickAckLow smp) { s with inputs := es }) ∧
    (s.phase = .ackHigh → step s = exec (.tickAckHigh smp) { s with inputs := es }) ∧
    (s.phase = .bitMark → step s = exec (.tickBitMark smp) { s with inputs := es }) ∧
    (s.phase = .bitHigh → step s = exec (.tickBitHigh smp) { s with inputs := es }) ∧
    (s.phase = .measure → step s = exec (.tickMeasure smp) { s with inputs := es })

/-- Nothing traps (60_exceptions.md rule R200): every instruction has a next state in every state, and a step
declines only a host access of another width than 32 bits, narrower or wider (20_memory.md rule R51). That a step has a
next state when no event waits is the model's choice (log entry 4). -/
def Obligations.OnlyOtherWidthsAreDeclined : Prop :=
  (∀ (i : Instr) (s : State), ∃ t, exec i s = .next t) ∧
  (∀ s : State,
    (∃ t, step s = .next t) ∨
    ∃ a es, s.inputs = .access a :: es ∧ a.width ≠ 32 ∧ step s = .refused (.accessWidth a.width))

/-- Host accesses move exactly 32 bits and are selected by `addr[4:2]` alone: `addr[1:0]` is ignored, an access at
0x11 is one to DATA0, and another width is refused by name (20_memory.md rule R51). -/
def Obligations.AccessIsSelectedByWordAddress : Prop :=
  (∀ (s : State) (a b : Access) (es : List Event), a.width = 32 → b.width = 32 → a.we = b.we → a.wdata = b.wdata →
    a.off.extractLsb' 2 3 = b.off.extractLsb' 2 3 →
    step { s with inputs := .access a :: es } = step { s with inputs := .access b :: es }) ∧
  (∀ (s : State) (es : List Event),
    step { s with inputs := .access (hostRead 0x11#5) :: es } =
      .next { s with inputs := es, rdata := frameHigh s.data }) ∧
  (∀ (s : State) (a : Access) (es : List Event), a.width ≠ 32 →
    step { s with inputs := .access a :: es } = .refused (.accessWidth a.width))

/-- A host read returns the word of the register at `off[4:2]`, after the tick of the same clock, and changes nothing
else, so it can be repeated (45_host_interface.md rule R179, 20_memory.md rule R55). -/
def Obligations.HostReadReturnsItsRegister : Prop :=
  (∀ (s : State) (off : Offset) (es : List Event),
    step { s with inputs := .access (hostRead off) :: es } =
      .next { s with inputs := es, rdata := registerWord s (off.extractLsb' 2 3) } ∧
    ∀ (w : Word) (es' : List Event) (sel : BitVec 3),
      registerWord { s with inputs := es', rdata := w } sel = registerWord s sel) ∧
  (∀ (s t : State) (smp : Bit) (off : Offset) (es : List Event),
    s.inputs = .tick smp :: .access (hostRead off) :: es → step s = .next t →
    step t = .next { t with inputs := es, rdata := registerWord t (off.extractLsb' 2 3) })

/-! Reads -/

/-- CMD, CONFIG and STATUS reads (45_host_interface.md rules R180, R181 and R182). -/
def Obligations.ControlRegisterReads : Prop :=
  (∀ (lo : BitVec 2) (ign : Word) (s : State), exec (.rdCmd lo ign) s = .next { s with rdata := 0x00000000#32 }) ∧
  (∀ (lo : BitVec 2) (ign : Word) (s : State), exec (.rdConfig lo ign) s =
    .next { s with rdata := s.mtimeout ++ 0#6 ++ s.mlevel ++ s.ie ++ s.thresh }) ∧
  (∀ (lo : BitVec 2) (ign : Word) (s : State), exec (.rdStatus lo ign) s =
    .next { s with
      rdata := 0#10 ++ s.bitidx ++ 0#1 ++ s.errphase ++ 0#1 ++ s.phase.code ++ 0#1 ++ s.result.code ++ 0#1 ++
        s.cmderr ++ s.done ++ (if s.phase = .idle then 0#1 else 1#1) }) ∧
  configWord State.reset = 0x0050001E#32 ∧
  (∀ s : State, s.phase = .idle → s.bitidx = 40#6 → s.errphase = 0#3 → s.result = .valid → s.cmderr = 0#1 →
    s.done = 1#1 → statusWord s = 0x00280012#32) ∧
  (∀ s : State, s.phase = .idle → s.bitidx = 0#6 → s.errphase = 4#3 → s.result = .responseTimeout → s.cmderr = 0#1 →
    s.done = 1#1 → statusWord s = 0x00004022#32)

/-- COUNT, DATA0, DATA1, RAW0 and RAW1 reads (45_host_interface.md rules R183, R184 and R185). -/
def Obligations.DatapathRegisterReads : Prop :=
  (∀ (lo : BitVec 2) (ign : Word) (s : State), exec (.rdCount lo ign) s =
    .next { s with rdata := s.count.setWidth 32 }) ∧
  (∀ (lo : BitVec 2) (ign : Word) (s : State), exec (.rdData0 lo ign) s =
    .next { s with rdata := s.data.extractLsb' 8 32 }) ∧
  (∀ (lo : BitVec 2) (ign : Word) (s : State), exec (.rdData1 lo ign) s =
    .next { s with rdata := (s.data.extractLsb' 0 8).setWidth 32 }) ∧
  (∀ (lo : BitVec 2) (ign : Word) (s : State), exec (.rdRaw0 lo ign) s =
    .next { s with rdata := s.shift.extractLsb' 8 32 }) ∧
  (∀ (lo : BitVec 2) (ign : Word) (s : State), exec (.rdRaw1 lo ign) s =
    .next { s with
      rdata := 0#15 ++ BitVec.ofBool (frameCheck s.shift) ++ frameSum s.shift ++ s.shift.extractLsb' 0 8 })

/-- The register layouts as numbers: each field at its bit position, every other bit 0 (30_encoding.md rules R72 to
R78); and the codes of results and phases as numbers (rules R81 and R82). -/
def Obligations.RegisterWordsAsNumbers : Prop :=
  [Result.none, .valid, .responseTimeout, .bitTimeout, .checksumMismatch, .measureOk, .measureTimeout].map
    (fun r => r.code.toNat) = [0, 1, 2, 3, 4, 5, 6] ∧
  [Phase.idle, .startLow, .startHigh, .ackLow, .ackHigh, .bitMark, .bitHigh, .measure].map
    (fun q => q.code.toNat) = [0, 1, 2, 3, 4, 5, 6, 7] ∧
  ∀ s : State,
    (configWord s).toNat = s.thresh.toNat + 2 ^ 8 * s.ie.toNat + 2 ^ 9 * s.mlevel.toNat + 2 ^ 16 * s.mtimeout.toNat ∧
    (statusWord s).toNat =
      (busy s).toNat + 2 * s.done.toNat + 2 ^ 2 * s.cmderr.toNat + 2 ^ 4 * s.result.code.toNat +
        2 ^ 8 * s.phase.code.toNat + 2 ^ 12 * s.errphase.toNat + 2 ^ 16 * s.bitidx.toNat ∧
    (countWord s).toNat = s.count.toNat ∧
    (data0Word s).toNat = s.data.toNat / 2 ^ 8 ∧
    (data1Word s).toNat = s.data.toNat % 2 ^ 8 ∧
    (raw0Word s).toNat = s.shift.toNat / 2 ^ 8 ∧
    (raw1Word s).toNat =
      s.shift.toNat % 2 ^ 8 + 2 ^ 8 * (frameSum s.shift).toNat + 2 ^ 16 * (frameCheck s.shift).toNat

/-! Writes -/

/-- NOP changes no state, whether or not a command runs, and raises nothing: as an instruction, and as any CMD write
whose CODE is 0 (45_host_interface.md rule R172). -/
def Obligations.NopChangesNothing : Prop :=
  (∀ (lo : BitVec 2) (ign : BitVec 29) (s : State), exec (.nop lo ign) s = .next s) ∧
  (∀ (s : State) (off : Offset) (v : Word) (es : List Event), off.extractLsb' 2 3 = 0#3 → v.extractLsb' 0 3 = 0#3 →
    step { s with inputs := .access (hostWrite off v) :: es } = .next { s with inputs := es })

/-- Writes to COUNT, DATA0, DATA1, RAW0 and RAW1 change no state and raise nothing (45_host_interface.md rule
R178). -/
def Obligations.ReadOnlyRegisterWritesAreIgnored : Prop :=
  (∀ (lo : BitVec 2) (ign : Word) (s : State),
    exec (.wrCount lo ign) s = .next s ∧ exec (.wrData0 lo ign) s = .next s ∧ exec (.wrData1 lo ign) s = .next s ∧
    exec (.wrRaw0 lo ign) s = .next s ∧ exec (.wrRaw1 lo ign) s = .next s) ∧
  (∀ (s : State) (off : Offset) (v : Word) (es : List Event), 3 ≤ (off.extractLsb' 2 3).toNat →
    step { s with inputs := .access (hostWrite off v) :: es } = .next { s with inputs := es })

/-- A CONFIG write stores its four fields, at any time, and nothing else: the snapshots of a running command stay,
and `irq` follows IE at once (45_host_interface.md rule R176). -/
def Obligations.ConfigWriteStoresItsFields : Prop :=
  (∀ (lo : BitVec 2) (mtimeout : BitVec 16) (ign : BitVec 6) (mlevel ie : Bit) (thresh : Byte) (s : State),
    exec (.wrConfig lo mtimeout ign mlevel ie thresh) s =
      .next { s with thresh := thresh, ie := ie, mlevel := mlevel, mtimeout := mtimeout }) ∧
  (∀ (s : State) (off : Offset) (v : Word) (es : List Event), off.extractLsb' 2 3 = 1#3 →
    step { s with inputs := .access (hostWrite off v) :: es } =
      .next { s with
        inputs := es, thresh := v.extractLsb' 0 8, ie := v.extractLsb' 8 1, mlevel := v.extractLsb' 9 1,
        mtimeout := v.extractLsb' 16 16 }) ∧
  (∀ (s : State) (ie : Bit), s.done = 1#1 → irq { s with ie := ie } = ie) ∧
  (∀ (s : State) (es : List Event),
    step { s with inputs := .access (hostWrite 0x04#5 0x0064021E#32) :: es } =
      .next { s with inputs := es, thresh := 30#8, ie := 0#1, mlevel := 1#1, mtimeout := 100#16 })

/-- A STATUS write clears DONE and CMDERR where its bits 1 and 2 are 1, and nothing else; a W1C in the clock in which
a tick sets DONE comes after it and clears it (45_host_interface.md rule R177). -/
def Obligations.StatusWriteClearsItsFlags : Prop :=
  (∀ (lo : BitVec 2) (ign : BitVec 29) (clrCmderr clrDone ign0 : Bit) (s : State),
    exec (.wrStatus lo ign clrCmderr clrDone ign0) s =
      .next { s with
        done := if clrDone = 1#1 then 0#1 else s.done,
        cmderr := if clrCmderr = 1#1 then 0#1 else s.cmderr }) ∧
  (∀ (s : State) (off : Offset) (v : Word) (es : List Event), off.extractLsb' 2 3 = 2#3 →
    step { s with inputs := .access (hostWrite off v) :: es } =
      .next { s with
        inputs := es,
        done := if v.extractLsb' 1 1 = 1#1 then 0#1 else s.done,
        cmderr := if v.extractLsb' 2 1 = 1#1 then 0#1 else s.cmderr }) ∧
  (∀ (s t : State) (smp : Bit) (es : List Event),
    s.inputs = .tick smp :: .access (hostWrite 0x08#5 2#32) :: es → step s = .next t →
    step t = .next { t with inputs := es, done := 0#1 }) ∧
  (∀ (s : State) (es : List Event), statusWord s = 0x00280012#32 → ∃ t,
    step { s with inputs := .access (hostWrite 0x08#5 2#32) :: es } = .next t ∧ statusWord t = 0x00280010#32)

/-! Commands -/

/-- The dispatch of a CMD write on CODE = `v[2:0]` and PHASE; `v[31:3]` is ignored; a READ that comes after the tick
that ends a command is accepted (45_host_interface.md rule R171). -/
def Obligations.CommandWriteDispatch : Prop :=
  (∀ (s : State) (off : Offset) (v : Word) (es : List Event), off.extractLsb' 2 3 = 0#3 →
    step { s with inputs := .access (hostWrite off v) :: es } =
      .next
        (if v.extractLsb' 0 3 = 0#3 then { s with inputs := es }
        else if v.extractLsb' 0 3 = 1#3 ∧ s.phase = .idle then State.acceptRead { s with inputs := es }
        else if v.extractLsb' 0 3 = 2#3 ∧ s.phase = .idle then State.acceptMeasure { s with inputs := es }
        else State.reject { s with inputs := es })) ∧
  (∀ (s t : State) (smp : Bit) (es : List Event),
    s.inputs = .tick smp :: .access (hostWrite 0x00#5 1#32) :: es → step s = .next t → t.phase = .idle →
    step t = .next (State.acceptRead { t with inputs := es }))

/-- READ acceptance (45_host_interface.md rule R173): the session starts afresh, THRESH is copied, the line goes low,
DATA, CMDERR and CONFIG stay. TICKGEN restarts. -/
def Obligations.ReadAcceptance : Prop :=
  ∀ (lo : BitVec 2) (ign : BitVec 29) (s : State), s.phase = .idle → ∃ t,
    exec (.read lo ign) s = .next t ∧
    t = { s with
      phase := .startLow, cnt := 0#17, shift := 0#40, bitidx := 0#6, count := 0#17, thrS := s.thresh,
      result := .none, errphase := 0#3, done := 0#1, tickgen := 0 } ∧
    lineOe t = 1#1 ∧ lineOut t = 0#1 ∧ busy t = 1#1 ∧
    (s.cmderr = 0#1 → statusWord t = 0x00000101#32)

/-- MEASURE acceptance (45_host_interface.md rule R174): MLEVEL and MTIMEOUT are copied, the line stays released,
SHIFT, BITIDX, DATA, THR_S and CMDERR stay, and TICKGEN restarts. CONFIG written after acceptance does not change the
running MEASURE. With MLEVEL = 1 and MTIMEOUT = 100 it counts the samples of 1 up to 100, and 101 of them time it
out. -/
def Obligations.MeasureAcceptance : Prop :=
  ∀ (lo : BitVec 2) (ign : BitVec 29) (s : State), s.phase = .idle → ∃ t,
    exec (.measure lo ign) s = .next t ∧
    t = { s with
      phase := .measure, cnt := 0#17, mlvlS := s.mlevel, mtoS := s.mtimeout, count := 0#17,
      result := .none, errphase := 0#3, done := 0#1, tickgen := 0 } ∧
    lineOe t = 0#1 ∧ busy t = 1#1 ∧
    (∀ (l : List Bit) (thresh : Byte) (ie mlevel : Bit) (mtimeout : BitVec 16),
      ticks params l { t with thresh := thresh, ie := ie, mlevel := mlevel, mtimeout := mtimeout } =
        { ticks params l t with thresh := thresh, ie := ie, mlevel := mlevel, mtimeout := mtimeout }) ∧
    (s.mlevel = 1#1 → s.mtimeout = 100#16 →
      (∀ n : Nat, n ≤ 100 → ticks params (List.replicate n 1#1 ++ [0#1]) t =
        { t with count := BitVec.ofNat 17 n, result := .measureOk, done := 1#1, phase := .idle }) ∧
      ticks params (List.replicate 101 1#1) t =
        { t with count := 101#17, result := .measureTimeout, errphase := 7#3, done := 1#1, phase := .idle })

/-- Rejection (45_host_interface.md rule R175): a reserved code in any phase, or READ or MEASURE while a command
runs, sets CMDERR and nothing else. CMDERR is sticky: only a STATUS write with bit 2 set or a reset clears it. -/
def Obligations.RejectionSetsStickyCmderr : Prop :=
  (∀ (lo : BitVec 2) (ign : BitVec 29) (s : State), exec (.cmdRsv3 lo ign) s = .next { s with cmderr := 1#1 }) ∧
  (∀ (lo : BitVec 2) (ign : BitVec 29) (code : BitVec 2) (s : State),
    exec (.cmdRsv47 lo ign code) s = .next { s with cmderr := 1#1 }) ∧
  (∀ (lo : BitVec 2) (ign : BitVec 29) (s : State), s.phase ≠ .idle →
    exec (.read lo ign) s = .next { s with cmderr := 1#1 } ∧
    exec (.measure lo ign) s = .next { s with cmderr := 1#1 }) ∧
  (∀ s t : State, step s = .next t → s.cmderr = 1#1 →
    t.cmderr = 1#1 ∨ nextIsReset s = true ∨ ∃ v, nextIsWrite s 2#3 v ∧ v.extractLsb' 2 1 = 1#1)

/-- While a command runs, a host access changes only CONFIG, DONE, CMDERR and the word returned: the host has no move
that stops, restarts or disturbs a command (70_reset_and_hazards.md rules R236, R238 and R247). -/
def Obligations.HostCannotDisturbACommand : Prop :=
  ∀ (s t : State) (a : Access) (es : List Event), s.inputs = .access a :: es → s.phase ≠ .idle → step s = .next t →
    t = { s with
      inputs := es, thresh := t.thresh, ie := t.ie, mlevel := t.mlevel, mtimeout := t.mtimeout, done := t.done,
      cmderr := t.cmderr, rdata := t.rdata }

/-! Ticks -/

/-- TICK_IDLE changes no state and ignores the sample (45_host_interface.md rule R188). -/
def Obligations.IdleTickChangesNothing : Prop := ∀ (smp : Bit) (s : State), exec (.tickIdle smp) s = .next s

/-- The start sequence's ticks, for any build and for the machine (41_start_sequence.md rules R121 and R122). -/
def Obligations.StartSequenceTicks : Prop :=
  (∀ (p : Params) (smp : Bit) (s : State), s.phase = .startLow →
    tick p smp s =
      if (s.cnt + 1#17).toNat = p.tStartLow then { s with phase := .startHigh, cnt := 0#17 }
      else { s with cnt := s.cnt + 1#17 }) ∧
  (∀ (p : Params) (smp : Bit) (s : State), s.phase = .startHigh →
    tick p smp s =
      if (s.cnt + 1#17).toNat = p.tStartHigh then { s with phase := .ackLow, cnt := 0#17 }
      else { s with cnt := s.cnt + 1#17 }) ∧
  (∀ (smp : Bit) (s : State), exec (.tickStartLow smp) s =
    .next (if s.cnt + 1#17 = 20000#17 then { s with phase := .startHigh, cnt := 0#17 }
      else { s with cnt := s.cnt + 1#17 })) ∧
  (∀ (smp : Bit) (s : State), exec (.tickStartHigh smp) s =
    .next (if s.cnt + 1#17 = 40#17 then { s with phase := .ackLow, cnt := 0#17 }
      else { s with cnt := s.cnt + 1#17 }))

/-- The start sequence takes exactly `T_START_LOW` ticks low and `T_START_HIGH` ticks high and then releases the line,
whatever the samples are; it cannot fail (41_start_sequence.md rules R124 and R125). -/
def Obligations.StartSequenceTiming : Prop :=
  (∀ (p : Params) (s : State) (l : List Bit), p.wf →
    (l.length < p.tStartLow →
      ticks p l s.acceptRead = { s.acceptRead with cnt := BitVec.ofNat 17 l.length } ∧
      lineOe (ticks p l s.acceptRead) = 1#1 ∧ lineOut (ticks p l s.acceptRead) = 0#1) ∧
    (p.tStartLow ≤ l.length → l.length < p.tStartLow + p.tStartHigh →
      ticks p l s.acceptRead =
        { s.acceptRead with phase := .startHigh, cnt := BitVec.ofNat 17 (l.length - p.tStartLow) } ∧
      lineOe (ticks p l s.acceptRead) = 1#1 ∧ lineOut (ticks p l s.acceptRead) = 1#1) ∧
    (l.length = p.tStartLow + p.tStartHigh →
      ticks p l s.acceptRead = { s.acceptRead with phase := .ackLow, cnt := 0#17 } ∧
      lineOe (ticks p l s.acceptRead) = 0#1 ∧ lineOut (ticks p l s.acceptRead) = 0#1)) ∧
  params.tStartLow = 20000 ∧ params.tStartHigh = 40

/-- The sample is ignored in IDLE, START_LOW and START_HIGH (20_memory.md rule R61). -/
def Obligations.SampleIsIgnoredOutsideWaits : Prop :=
  ∀ (p : Params) (smp smp' : Bit) (s : State), s.phase = .idle ∨ s.phase = .startLow ∨ s.phase = .startHigh →
    tick p smp s = tick p smp' s

/-- PT_STEP in the default order, with the ranges of its three results (40_pulse_timer.md rule R101). -/
def Obligations.PulseTimerStep : Prop :=
  ∀ (smp lvl : Bit) (bound : Nat) (cnt : TickCount), bound ≤ 65535 → cnt.toNat ≤ bound →
    (smp ≠ lvl → ptStep .incrementThenCheck smp lvl bound cnt = .finished cnt) ∧
    (smp = lvl → cnt.toNat + 1 > bound → ∃ c, ptStep .incrementThenCheck smp lvl bound cnt = .timeout c ∧
      c.toNat = bound + 1) ∧
    (smp = lvl → cnt.toNat + 1 ≤ bound → ∃ c, ptStep .incrementThenCheck smp lvl bound cnt = .cont c ∧
      c.toNat = cnt.toNat + 1 ∧ 1 ≤ c.toNat ∧ c.toNat ≤ bound)

/-- A whole wait counts exactly the samples at the expected level and always ends within bound + 1 evaluations
(40_pulse_timer.md rule R102). -/
def Obligations.WaitCountsSamples : Prop :=
  ∀ (lvl : Bit) (bound n : Nat) (rest : List Bit), bound ≤ 65535 →
    (n ≤ bound → ∀ smp : Bit, smp ≠ lvl →
      waitForLevelChange .incrementThenCheck lvl bound (List.replicate n lvl ++ smp :: rest) 0#17 =
        some (.finished (BitVec.ofNat 17 n), n + 1)) ∧
    (bound < n →
      waitForLevelChange .incrementThenCheck lvl bound (List.replicate n lvl ++ rest) 0#17 =
        some (.timeout (BitVec.ofNat 17 (bound + 1)), bound + 1))

/-- The other comparison order: one step, and a whole wait (40_pulse_timer.md rule R109). -/
def Obligations.CheckThenIncrementOrder : Prop :=
  (∀ (smp lvl : Bit) (bound : Nat) (cnt : TickCount),
    ptStep .checkThenIncrement smp lvl bound cnt =
      if smp ≠ lvl then .finished cnt
      else if cnt.toNat > bound then .timeout cnt
      else .cont (cnt + 1#17)) ∧
  (∀ (lvl : Bit) (bound n : Nat) (rest : List Bit), bound ≤ 65535 →
    (n ≤ bound + 1 → ∀ smp : Bit, smp ≠ lvl →
      waitForLevelChange .checkThenIncrement lvl bound (List.replicate n lvl ++ smp :: rest) 0#17 =
        some (.finished (BitVec.ofNat 17 n), n + 1)) ∧
    (bound + 1 < n →
      waitForLevelChange .checkThenIncrement lvl bound (List.replicate n lvl ++ rest) 0#17 =
        some (.timeout (BitVec.ofNat 17 (bound + 1)), bound + 2)))

/-- TICK_ACK_LOW (42_response_detector.md rule R131): count a 0, time out on the 81st, or complete on a 1 and start
ACK_HIGH on that same sample. -/
def Obligations.AckLowTick : Prop :=
  (∀ s : State, s.cnt.toNat < 80 → exec (.tickAckLow 0#1) s = .next { s with cnt := s.cnt + 1#17 }) ∧
  (∀ s : State, s.cnt = 80#17 → exec (.tickAckLow 0#1) s =
    .next { s with
      count := 81#17, result := .responseTimeout, errphase := 3#3, done := 1#1, phase := .idle, cnt := 0#17 }) ∧
  (∀ s : State, exec (.tickAckLow 1#1) s =
    .next { s with count := s.cnt, phase := .ackHigh, cnt := 1#17 }) ∧
  (∀ s : State, s.phase = .ackLow → s.cnt = 0#17 → ticks params (List.replicate 81 0#1) s =
    { s with
      count := 81#17, result := .responseTimeout, errphase := 3#3, done := 1#1, phase := .idle, cnt := 0#17 })

/-- TICK_ACK_HIGH (42_response_detector.md rule R132). The phase is entered only by chaining, with CNT = 1. -/
def Obligations.AckHighTick : Prop :=
  (∀ s : State, s.cnt.toNat < 80 → exec (.tickAckHigh 1#1) s = .next { s with cnt := s.cnt + 1#17 }) ∧
  (∀ s : State, s.cnt = 80#17 → exec (.tickAckHigh 1#1) s =
    .next { s with
      count := 81#17, result := .responseTimeout, errphase := 4#3, done := 1#1, phase := .idle, cnt := 0#17 }) ∧
  (∀ s : State, exec (.tickAckHigh 0#1) s =
    .next { s with count := s.cnt, phase := .bitMark, cnt := 1#17 }) ∧
  (∀ s t : State, step s = .next t → s.phase ≠ .ackHigh → t.phase = .ackHigh → s.phase = .ackLow ∧ t.cnt = 1#17)

/-- TICK_BIT_MARK (43_frame_sampler.md rule R141). The phase is entered only by chaining, with CNT = 1. -/
def Obligations.BitMarkTick : Prop :=
  (∀ s : State, s.cnt.toNat < 50 → exec (.tickBitMark 0#1) s = .next { s with cnt := s.cnt + 1#17 }) ∧
  (∀ s : State, s.cnt = 50#17 → exec (.tickBitMark 0#1) s =
    .next { s with
      count := 51#17, result := .bitTimeout, errphase := 5#3, done := 1#1, phase := .idle, cnt := 0#17 }) ∧
  (∀ s : State, exec (.tickBitMark 1#1) s =
    .next { s with count := s.cnt, phase := .bitHigh, cnt := 1#17 }) ∧
  (∀ s t : State, step s = .next t → s.phase ≠ .bitMark → t.phase = .bitMark →
    (s.phase = .ackHigh ∨ s.phase = .bitHigh) ∧ t.cnt = 1#17)

/-- TICK_BIT_HIGH with FRAME_END (43_frame_sampler.md rule R142, 44_checksum_validator.md rule R161): count a 1, time
out on the 81st, or complete on a 0: the bit is written, BITIDX advances, and either the next marker starts on that
same sample or, after bit 39, the checksum of the frame decides the outcome. The phase is entered only by chaining, with
CNT = 1. -/
def Obligations.BitHighTick : Prop :=
  (∀ s : State, s.cnt.toNat < 80 → exec (.tickBitHigh 1#1) s = .next { s with cnt := s.cnt + 1#17 }) ∧
  (∀ s : State, s.cnt = 80#17 → exec (.tickBitHigh 1#1) s =
    .next { s with
      count := 81#17, result := .bitTimeout, errphase := 6#3, done := 1#1, phase := .idle, cnt := 0#17 }) ∧
  (∀ s : State, s.bitidx.toNat < 39 → exec (.tickBitHigh 0#1) s =
    .next { s with
      count := s.cnt, shift := placeBit s.shift s.bitidx (if s.thrS.toNat < s.cnt.toNat then 1#1 else 0#1),
      bitidx := s.bitidx + 1#6, phase := .bitMark, cnt := 1#17 }) ∧
  (∀ (s : State) (f : FrameBits), s.bitidx = 39#6 →
    f = placeBit s.shift 39#6 (if s.thrS.toNat < s.cnt.toNat then 1#1 else 0#1) →
    exec (.tickBitHigh 0#1) s =
      .next
        (if frameCheck f then
          { s with
            count := s.cnt, shift := f, bitidx := 40#6, data := f, result := .valid, errphase := 0#3, done := 1#1,
            phase := .idle, cnt := 0#17 }
        else
          { s with
            count := s.cnt, shift := f, bitidx := 40#6, result := .checksumMismatch, errphase := 0#3, done := 1#1,
            phase := .idle, cnt := 0#17 })) ∧
  (∀ s t : State, step s = .next t → s.phase ≠ .bitHigh → t.phase = .bitHigh → s.phase = .bitMark ∧ t.cnt = 1#17)

/-- TICK_MEASURE with COMPLETE(MEASURE) (40_pulse_timer.md rules R107 and R108). -/
def Obligations.MeasureTick : Prop :=
  (∀ (s : State) (smp : Bit), smp = s.mlvlS → s.cnt.toNat < s.mtoS.toNat →
    exec (.tickMeasure smp) s = .next { s with cnt := s.cnt + 1#17 }) ∧
  (∀ (s : State) (smp : Bit), smp = s.mlvlS → s.cnt.toNat = s.mtoS.toNat →
    exec (.tickMeasure smp) s =
      .next { s with
        count := s.mtoS.setWidth 17 + 1#17, result := .measureTimeout, errphase := 7#3, done := 1#1, phase := .idle,
        cnt := 0#17 }) ∧
  (∀ (s : State) (smp : Bit), smp ≠ s.mlvlS →
    exec (.tickMeasure smp) s =
      .next { s with
        count := s.cnt, result := .measureOk, errphase := 0#3, done := 1#1, phase := .idle, cnt := 0#17 })

/-- A whole MEASURE (40_pulse_timer.md rules R106 and R107): it counts the samples at MLVL_S and changes none of SHIFT,
DATA and BITIDX; MTO_S + 1 of them time it out; until then it only counts. -/
def Obligations.MeasureCountsSamples : Prop :=
  ∀ (p : Params) (s : State), p.order = .incrementThenCheck → s.phase = .measure → s.cnt = 0#17 →
    (∀ n : Nat, n ≤ s.mtoS.toNat →
      ticks p (List.replicate n s.mlvlS) s = { s with cnt := BitVec.ofNat 17 n } ∧
      ∀ smp : Bit, smp ≠ s.mlvlS →
        ticks p (List.replicate n s.mlvlS ++ [smp]) s =
          { s with
            count := BitVec.ofNat 17 n, result := .measureOk, errphase := 0#3, done := 1#1, phase := .idle }) ∧
    ticks p (List.replicate (s.mtoS.toNat + 1) s.mlvlS) s =
      { s with
        count := BitVec.ofNat 17 (s.mtoS.toNat + 1), result := .measureTimeout, errphase := 7#3, done := 1#1,
        phase := .idle }

/-- The frame of the tick rules: no tick changes CONFIG, CMDERR, a snapshot, TICKGEN, the word returned, or the outside
world's events (10_state.md rules R29 to R31). -/
def Obligations.TicksLeaveTheHostsRegistersAlone : Prop :=
  ∀ (i : Instr) (smp : Bit) (s t : State),
    i ∈ [.tickIdle smp, .tickStartLow smp, .tickStartHigh smp, .tickAckLow smp, .tickAckHigh smp, .tickBitMark smp,
      .tickBitHigh smp, .tickMeasure smp] →
    exec i s = .next t →
    t = { s with
      phase := t.phase, cnt := t.cnt, bitidx := t.bitidx, shift := t.shift, data := t.data, count := t.count,
      done := t.done, result := t.result, errphase := t.errphase }

/-! Bits, frames and checksums -/

/-- The bit value (43_frame_sampler.md rule R143): the unsigned comparison, its values at THR_S = 30 and at THR_S of 80
or more, and THR_S fixed while a command runs, as the other snapshots are (rule R31). It is monotonic in the pulse
width (rule R149). -/
def Obligations.BitValue : Prop :=
  (∀ (thr : Byte) (c : TickCount), bitOf thr c = 1#1 ↔ c.toNat > thr.toNat) ∧
  (∀ c : TickCount, c.toNat ≤ 30 → bitOf 30#8 c = 0#1) ∧
  (∀ c : TickCount, 31 ≤ c.toNat → c.toNat ≤ 80 → bitOf 30#8 c = 1#1) ∧
  (∀ (thr : Byte) (c : TickCount), 80 ≤ thr.toNat → c.toNat ≤ 80 → bitOf thr c = 0#1) ∧
  (∀ (thr : Byte) (c c' : TickCount), c.toNat ≤ c'.toNat → (bitOf thr c).toNat ≤ (bitOf thr c').toNat) ∧
  (∀ s t : State, step s = .next t → s.phase ≠ .idle → nextIsReset s = false →
    t.thrS = s.thrS ∧ t.mlvlS = s.mlvlS ∧ t.mtoS = s.mtoS)

/-- Bit i goes to SHIFT[39 - i], which is bit 7 - i%8 of frame byte i/8; every other bit keeps its value
(43_frame_sampler.md rule R144). -/
def Obligations.BitPlacement : Prop :=
  ∀ (f : FrameBits) (i : BitVec 6) (b : Bit), i.toNat < 40 →
    (placeBit f i b).getLsbD (39 - i.toNat) = (b == 1#1) ∧
    (frameByte (placeBit f i b) (i.toNat / 8)).getLsbD (7 - i.toNat % 8) = (b == 1#1) ∧
    ∀ j : Nat, j ≠ 39 - i.toNat → (placeBit f i b).getLsbD j = f.getLsbD j

/-- SUM and CHECK, by arithmetic on the frame as a number (44_checksum_validator.md rule R160). -/
def Obligations.ChecksumOfFrame : Prop :=
  ∀ f : FrameBits,
    (frameSum f).toNat =
      (f.toNat / 2 ^ 32 % 256 + f.toNat / 2 ^ 24 % 256 + f.toNat / 2 ^ 16 % 256 + f.toNat / 2 ^ 8 % 256) % 256 ∧
    (frameCheck f = true ↔ (frameSum f).toNat = f.toNat % 256)

/-- The checksum's derived properties: the zero frame passes, and a single flipped bit always fails
(44_checksum_validator.md rule R164, items 1 and 3). -/
def Obligations.SingleBitFlipIsDetected : Prop :=
  frameCheck 0#40 = true ∧
  ∀ (f : FrameBits) (k : Nat), k < 40 → frameCheck f = true → frameCheck (f ^^^ (1#40 <<< k)) = false

/-- RAW1.SUM and RAW1.MATCH are computed from the current SHIFT at every moment (44_checksum_validator.md rule
R163). -/
def Obligations.ChecksumViewFollowsShift : Prop :=
  ∀ s : State,
    (raw1Word s).extractLsb' 8 8 = frameSum s.shift ∧
    (raw1Word s).extractLsb' 16 1 = BitVec.ofBool (frameCheck s.shift) ∧
    (raw1Word s).extractLsb' 0 8 = s.shift.extractLsb' 0 8 ∧
    ∀ t : State, t.shift = s.shift → raw1Word t = raw1Word s

/-- DATA changes only where a READ ends VALID: at a tick in BIT_HIGH, to the whole of SHIFT, which passes the checksum
(44_checksum_validator.md rule R162). A reset apart, nothing else changes it. -/
def Obligations.DataChangesOnlyAtAValidFrameEnd : Prop :=
  ∀ s t : State, step s = .next t → nextIsReset s = false → t.data ≠ s.data →
    s.phase = .bitHigh ∧ nextTick s = some 0#1 ∧ t.phase = .idle ∧ t.result = .valid ∧ t.done = 1#1 ∧
    t.data = t.shift ∧ frameCheck t.shift = true

/-! The end of a command -/

/-- FAIL(P) in each wait phase, in any legal build and either comparison order. With CNT at the bound (in the default
order) or at `bound + 1` (in the other, 40_pulse_timer.md rule R109), a sample at the level ends the command: COUNT is
`bound + 1`, RESULT and ERRPHASE name the failure, DONE is set, the phase is IDLE and CNT is 0; BITIDX, SHIFT, DATA and
everything else stay (60_exceptions.md rule R202). -/
def Obligations.TimeoutRecord : Prop :=
  ∀ (p : Params) (s : State), p.wf →
    (s.phase = .ackLow → s.cnt.toNat = p.toAckLow + p.slack → tick p 0#1 s =
      { s with
        count := BitVec.ofNat 17 (p.toAckLow + 1), result := .responseTimeout, errphase := 3#3, done := 1#1,
        phase := .idle, cnt := 0#17 }) ∧
    (s.phase = .ackHigh → s.cnt.toNat = p.toAckHigh + p.slack → tick p 1#1 s =
      { s with
        count := BitVec.ofNat 17 (p.toAckHigh + 1), result := .responseTimeout, errphase := 4#3, done := 1#1,
        phase := .idle, cnt := 0#17 }) ∧
    (s.phase = .bitMark → s.cnt.toNat = p.toMark + p.slack → tick p 0#1 s =
      { s with
        count := BitVec.ofNat 17 (p.toMark + 1), result := .bitTimeout, errphase := 5#3, done := 1#1,
        phase := .idle, cnt := 0#17 }) ∧
    (s.phase = .bitHigh → s.cnt.toNat = p.toHigh + p.slack → tick p 1#1 s =
      { s with
        count := BitVec.ofNat 17 (p.toHigh + 1), result := .bitTimeout, errphase := 6#3, done := 1#1,
        phase := .idle, cnt := 0#17 }) ∧
    (s.phase = .measure → s.cnt.toNat = s.mtoS.toNat + p.slack → tick p s.mlvlS s =
      { s with
        count := BitVec.ofNat 17 (s.mtoS.toNat + 1), result := .measureTimeout, errphase := 7#3, done := 1#1,
        phase := .idle, cnt := 0#17 }) ∧
    (p.order = .incrementThenCheck → p.slack = 0) ∧ (p.order = .checkThenIncrement → p.slack = 1)

/-- A command that ends, ends at a tick, sets DONE, clears CNT, and records the one RESULT its phase allows, BITIDX being
kept but at the end of a frame, where it is 40: the start sequence cannot end a command, and no tick reports two outcomes
(60_exceptions.md rules R203 and R206). -/
def Obligations.CommandEndRecordsOneOutcome : Prop :=
  ∀ s t : State, step s = .next t → nextIsReset s = false → s.phase ≠ .idle → t.phase = .idle →
    (nextTick s).isSome = true ∧ t.done = 1#1 ∧ t.cnt = 0#17 ∧
    ((s.phase = .ackLow ∧ t.result = .responseTimeout ∧ t.errphase = 3#3 ∧ t.bitidx = s.bitidx) ∨
     (s.phase = .ackHigh ∧ t.result = .responseTimeout ∧ t.errphase = 4#3 ∧ t.bitidx = s.bitidx) ∨
     (s.phase = .bitMark ∧ t.result = .bitTimeout ∧ t.errphase = 5#3 ∧ t.bitidx = s.bitidx) ∨
     (s.phase = .bitHigh ∧ t.result = .bitTimeout ∧ t.errphase = 6#3 ∧ t.bitidx = s.bitidx) ∨
     (s.phase = .bitHigh ∧ t.result = .valid ∧ t.errphase = 0#3 ∧ t.bitidx = 40#6) ∨
     (s.phase = .bitHigh ∧ t.result = .checksumMismatch ∧ t.errphase = 0#3 ∧ t.bitidx = 40#6) ∨
     (s.phase = .measure ∧ t.result = .measureOk ∧ t.errphase = 0#3 ∧ t.bitidx = s.bitidx) ∨
     (s.phase = .measure ∧ t.result = .measureTimeout ∧ t.errphase = 7#3 ∧ t.bitidx = s.bitidx))

/-- The record of a command stays until the next acceptance or reset; only a W1C may clear DONE earlier
(60_exceptions.md rule R204). -/
def Obligations.RecordStaysUntilTheNextCommand : Prop :=
  ∀ s t : State, step s = .next t → nextIsReset s = false → s.phase = .idle → t.phase = .idle →
    t.result = s.result ∧ t.errphase = s.errphase ∧ t.bitidx = s.bitidx ∧ t.count = s.count ∧ t.shift = s.shift ∧
    t.data = s.data ∧
    (t.done = s.done ∨ t.done = 0#1 ∧ ∃ v, nextIsWrite s 2#3 v ∧ v.extractLsb' 1 1 = 1#1)

/-- `irq` rises only where a command ends with IE = 1 or a CONFIG write sets IE with DONE = 1, and falls only where DONE
is cleared (W1C or acceptance), IE is cleared, or the block is reset (45_host_interface.md rule R186). -/
def Obligations.InterruptRisesAndFalls : Prop :=
  (∀ s : State, irq s = 1#1 ↔ s.done = 1#1 ∧ s.ie = 1#1) ∧
  (∀ s t : State, step s = .next t → irq s = 0#1 → irq t = 1#1 →
    (s.phase ≠ .idle ∧ t.phase = .idle ∧ s.ie = 1#1) ∨
    (s.done = 1#1 ∧ ∃ v, nextIsWrite s 1#3 v ∧ v.extractLsb' 8 1 = 1#1)) ∧
  (∀ s t : State, step s = .next t → irq s = 1#1 → irq t = 0#1 →
    nextIsReset s = true ∨
    (∃ v, nextIsWrite s 2#3 v ∧ v.extractLsb' 1 1 = 1#1) ∨
    (∃ v, nextIsWrite s 1#3 v ∧ v.extractLsb' 8 1 = 0#1) ∨
    (s.phase = .idle ∧ ∃ v, nextIsWrite s 0#3 v ∧ (v.extractLsb' 0 3 = 1#3 ∨ v.extractLsb' 0 3 = 2#3)))

/-- BUSY and the line outputs are functions of PHASE (10_state.md rule R23, 41_start_sequence.md rule R123). -/
def Obligations.OutputsFollowPhase : Prop :=
  ∀ s : State,
    (busy s = 1#1 ↔ s.phase ≠ .idle) ∧ (statusWord s).extractLsb' 0 1 = busy s ∧
    (lineOe s = 1#1 ↔ s.phase = .startLow ∨ s.phase = .startHigh) ∧ (lineOut s = 1#1 ↔ s.phase = .startHigh) ∧
    (lineOe s = 0#1 → lineOut s = 0#1)

/-- PHASE moves only along DOC's state machine: a tick moves it on or to IDLE, an acceptance starts it, a reset ends it
(10_state.md rule R21, 45_host_interface.md rule R189). -/
def Obligations.PhaseFollowsTheReadSequence : Prop :=
  ∀ s t : State, step s = .next t → t.phase ≠ s.phase →
    (nextIsReset s = true ∧ t.phase = .idle) ∨
    ((nextTick s).isSome = true ∧
      (s.phase, t.phase) ∈
        [(Phase.startLow, Phase.startHigh), (.startHigh, .ackLow), (.ackLow, .ackHigh), (.ackHigh, .bitMark),
          (.bitMark, .bitHigh), (.bitHigh, .bitMark), (.ackLow, .idle), (.ackHigh, .idle), (.bitMark, .idle),
          (.bitHigh, .idle), (.measure, .idle)]) ∨
    (∃ v, nextIsWrite s 0#3 v ∧ v.extractLsb' 0 3 = 1#3 ∧ s.phase = .idle ∧ t.phase = .startLow) ∨
    (∃ v, nextIsWrite s 0#3 v ∧ v.extractLsb' 0 3 = 2#3 ∧ s.phase = .idle ∧ t.phase = .measure)

/-- A READ uses neither MLEVEL nor MTIMEOUT, nor CONFIG's live THRESH and IE: changing them, and MEASURE's snapshots,
changes nothing else in any run of ticks (92_eei_decisions.md D14, 10_state.md rules R29 and R31). -/
def Obligations.ReadIgnoresMeasureRegisters : Prop :=
  ∀ (p : Params) (l : List Bit) (s : State) (thresh : Byte) (ie mlevel mlvlS : Bit) (mtimeout mtoS : BitVec 16),
    s.phase ≠ .measure →
    ticks p l { s with
      thresh := thresh, ie := ie, mlevel := mlevel, mtimeout := mtimeout, mlvlS := mlvlS, mtoS := mtoS } =
      { ticks p l s with
        thresh := thresh, ie := ie, mlevel := mlevel, mtimeout := mtimeout, mlvlS := mlvlS, mtoS := mtoS }

/-- A CONFIG write is harmless to the running command: with other values in CONFIG's fields, any run of ticks gives the
same, but for those fields. The next command's acceptance copies the new values, and IE acts on `irq` at once
(70_reset_and_hazards.md rule R236). -/
def Obligations.ConfigWriteIsHarmlessToACommand : Prop :=
  (∀ (p : Params) (l : List Bit) (s : State) (thresh : Byte) (ie mlevel : Bit) (mtimeout : BitVec 16),
    ticks p l { s with thresh := thresh, ie := ie, mlevel := mlevel, mtimeout := mtimeout } =
      { ticks p l s with thresh := thresh, ie := ie, mlevel := mlevel, mtimeout := mtimeout }) ∧
  (∀ (lo lo' : BitVec 2) (mtimeout : BitVec 16) (ign : BitVec 6) (ign' : BitVec 29) (mlevel ie : Bit) (thresh : Byte)
    (s t u v : State), exec (.wrConfig lo mtimeout ign mlevel ie thresh) s = .next t →
    t.thrS = s.thrS ∧ t.mlvlS = s.mlvlS ∧ t.mtoS = s.mtoS ∧ irq t = s.done &&& ie ∧
    (t.phase = .idle → exec (.read lo' ign') t = .next u → u.thrS = thresh) ∧
    (t.phase = .idle → exec (.measure lo' ign') t = .next v → v.mlvlS = mlevel ∧ v.mtoS = mtimeout))

/-! Reset and clocks -/

/-- The reset value of every piece of state, and the eight register words (10_state.md rule R37). -/
def Obligations.ResetValues : Prop :=
  State.reset.phase = .idle ∧ busy State.reset = 0#1 ∧ State.reset.cnt = 0#17 ∧ State.reset.bitidx = 0#6 ∧
  State.reset.shift = 0#40 ∧ State.reset.data = 0#40 ∧ State.reset.count = 0#17 ∧ State.reset.thresh = 0x1E#8 ∧
  State.reset.ie = 0#1 ∧ State.reset.mlevel = 0#1 ∧ State.reset.mtimeout = 0x0050#16 ∧ State.reset.done = 0#1 ∧
  State.reset.cmderr = 0#1 ∧ State.reset.result.code = 0#3 ∧ State.reset.errphase = 0#3 ∧ State.reset.thrS = 30#8 ∧
  State.reset.mlvlS = 0#1 ∧ State.reset.mtoS = 80#16 ∧ State.reset.tickgen = 0 ∧ lineOe State.reset = 0#1 ∧
  lineOut State.reset = 0#1 ∧ irq State.reset = 0#1 ∧
  cmdWord = 0x00000000#32 ∧ configWord State.reset = 0x0050001E#32 ∧ statusWord State.reset = 0x00000000#32 ∧
  countWord State.reset = 0x00000000#32 ∧ data0Word State.reset = 0x00000000#32 ∧
  data1Word State.reset = 0x00000000#32 ∧ raw0Word State.reset = 0x00000000#32 ∧
  raw1Word State.reset = 0x00010000#32

/-- A reset gives the reset state in any state, a running command's too: no RESULT, DONE = 0, the line released
(70_reset_and_hazards.md rules R230 and R231). What stays is the outside world's own: its coming events and the draws
made (log entries 3, 4 and 13). That `rdata` is 0 after it is the model's choice (log entries 2 and 13). -/
def Obligations.ResetEventRestoresResetState : Prop :=
  ∀ (s : State) (es : List Event), s.inputs = .reset :: es → ∃ t,
    step s = .next t ∧ t = { State.reset with inputs := es, draws := s.draws } ∧
    t.result = .none ∧ t.done = 0#1 ∧ lineOe t = 0#1 ∧ irq t = 0#1

/-- Events in one clock (60_exceptions.md rule R206, 92_eei_decisions.md D19): reset dominates; else the tick, if the
prescaler produces one, comes first and the host access last. The clause on a clock event, how TICKGEN counts clocks and
in which of them it gives its tick, is the model's own choice (log entry 6). -/
def Obligations.TickComesBeforeHostAccess : Prop :=
  (∀ c : ClockInputs, c.rst = 1#1 → c.events = [.reset]) ∧
  (∀ (c : ClockInputs) (a : Access), c.rst = 0#1 → c.access = some a → c.events = [.clock c.lineIn, .access a]) ∧
  (∀ c : ClockInputs, c.rst = 0#1 → c.access = none → c.events = [.clock c.lineIn]) ∧
  (∀ (s : State) (smp : Bit) (es : List Event), s.inputs = .clock smp :: es →
    step s = .next
      (if s.tickgen + 1 < clocksPerTick params then { s with inputs := es, tickgen := s.tickgen + 1 }
      else { s with inputs := .tick smp :: es, tickgen := 0 })) ∧
  (∀ (s t : State) (smp : Bit) (off : Offset) (es : List Event),
    s.inputs = .tick smp :: .access (hostRead off) :: es → step s = .next t →
    step t = .next { t with inputs := es, rdata := registerWord t (off.extractLsb' 2 3) })

/-! Invariants -/

/-- The machine's invariant holds right after reset. -/
def Obligations.ResetMeetsTheInvariant : Prop := Inv params State.reset

/-- Every step keeps the machine's invariant: CNT in the range of its phase, BITIDX and the unsampled bits of SHIFT, the
record of the last command with ERRPHASE and COUNT, and DATA a frame that passes the checksum (10_state.md rules R24
to R28, 30_encoding.md rule R83, 43_frame_sampler.md rules R145 to R148, 60_exceptions.md rules R201 and R204). -/
def Obligations.EveryStepKeepsTheInvariant : Prop :=
  ∀ s t : State, Inv params s → step s = .next t → Inv params t

/-- In any legal build, in either comparison order, every tick keeps the invariant. -/
def Obligations.EveryTickKeepsTheInvariant : Prop :=
  ∀ (p : Params) (smp : Bit) (s : State), p.wf → Inv p s → Inv p (tick p smp s)

/-- DATA always holds a frame that passes the checksum (10_state.md rule R27, 44_checksum_validator.md rule R162). -/
def Obligations.DataAlwaysPassesTheChecksum : Prop :=
  ∀ s t : State, frameCheck s.data = true → step s = .next t → frameCheck t.data = true

/-! Whole commands -/

/-- Every command ends, whatever the line does (60_exceptions.md rule R214): NOP takes no ticks, MEASURE ends by tick
MTO_S + 1, READ by tick `readBound`, which is 25401 in the default build, in any legal build in the default order. In the
other order a MEASURE ends by tick MTO_S + 2 and a READ by `readBound`, each wait one tick longer, which is 25483 with
the other parameters at their defaults (derived from 40_pulse_timer.md rule R109, 95_test_vectors.md V-TM-3). -/
def Obligations.EveryCommandEnds : Prop :=
  (∀ (lo : BitVec 2) (ign : BitVec 29) (s : State), exec (.nop lo ign) s = .next s) ∧
  (∀ (p : Params) (s : State) (l : List Bit), p.wf → p.order = .incrementThenCheck →
    s.acceptMeasure.mtoS.toNat + 1 ≤ l.length → runEnded (ticks p l s.acceptMeasure) = true) ∧
  (∀ (p : Params) (s : State) (l : List Bit), p.wf → p.order = .incrementThenCheck →
    p.tStartLow + p.tStartHigh + (p.toAckLow + 1) + p.toAckHigh + p.nbits * (p.toMark + p.toHigh) ≤ l.length →
    runEnded (ticks p l s.acceptRead) = true) ∧
  readBound params = 25401 ∧
  (∀ (p : Params) (s : State) (l : List Bit), p.wf → p.order = .checkThenIncrement →
    (s.acceptMeasure.mtoS.toNat + 2 ≤ l.length → runEnded (ticks p l s.acceptMeasure) = true) ∧
    (readBound p ≤ l.length → runEnded (ticks p l s.acceptRead) = true)) ∧
  readBound { params with order := .checkThenIncrement } = 25483

/-- A READ decodes the sensor's frame, in any legal build and either comparison order: from acceptance in any state, with
any samples during the start sequence and any frame whose pulses lie within the bounds, the READ ends at exactly the tick of 70_reset_and_hazards.md rule R243, with
SHIFT the frame the pulses stand for, VALID and DATA = SHIFT if it passes the checksum, CHECKSUM_MISMATCH and DATA as it
was if not, and everything else as at acceptance (30_encoding.md rules R84 and R85, 45_host_interface.md rule R189). -/
def Obligations.ReadDecodesTheSensorsFrame : Prop :=
  ∀ (p : Params) (s : State) (start : List Bit) (f : SensorFrame), p.wf → f.inTolerance p →
    start.length = p.tStartLow + p.tStartHigh →
    (ticks p (start ++ f.samples) s.acceptRead =
      { s.acceptRead with
        phase := .idle, cnt := 0#17, shift := pulseFrame s.thresh.toNat f.bits, bitidx := 40#6,
        count := BitVec.ofNat 17 (f.bits.getLastD (0, 0)).2, done := 1#1, errphase := 0#3,
        result := if frameCheck (pulseFrame s.thresh.toNat f.bits) then .valid else .checksumMismatch,
        data := if frameCheck (pulseFrame s.thresh.toNat f.bits) then pulseFrame s.thresh.toNat f.bits else s.data }) ∧
    (start ++ f.samples).length =
      p.tStartLow + p.tStartHigh + (f.ackLow + 1) + f.ackHigh + (f.bits.map (fun b => b.1 + b.2)).sum ∧
    ∀ k : Nat, k < (start ++ f.samples).length →
      (ticks p ((start ++ f.samples).take k) s.acceptRead).phase ≠ .idle
end

