-- ==== Sys2Proof/Laws/Decode.lean ====
section
/-! SUPPORT. The fields of a request word (30_encoding.md rule R70): what the decoder's extractions, and the opcode
table's masks, make of the encoder's concatenations. -/

namespace Sys2Proof

theorem extract_append_high {m n k : Nat} (x : BitVec m) (y : BitVec n) (j : Nat) (h : n ≤ j) :
    (x ++ y).extractLsb' j k = x.extractLsb' (j - n) k := by
  apply BitVec.eq_of_getLsbD_eq
  intro i hi
  simp only [BitVec.getLsbD_extractLsb', BitVec.getLsbD_append, hi, decide_true, Bool.true_and]
  rw [if_neg (by omega)]
  congr 1
  omega

theorem extract_append_low {m n k : Nat} (x : BitVec m) (y : BitVec n) (j : Nat) (h : j + k ≤ n) :
    (x ++ y).extractLsb' j k = y.extractLsb' j k := by
  apply BitVec.eq_of_getLsbD_eq
  intro i hi
  simp only [BitVec.getLsbD_extractLsb', BitVec.getLsbD_append, hi, decide_true, Bool.true_and]
  rw [if_pos (by omega)]

@[simp] theorem extract_all {n : Nat} (x : BitVec n) : x.extractLsb' 0 n = x := by
  apply BitVec.eq_of_getLsbD_eq
  intro i hi
  simp [hi]

section fields
variable (we : Bit) (sel : BitVec 3) (lo : BitVec 2) (v : Word)

@[simp] theorem requestWord_we : (requestWord we sel lo v).extractLsb' 37 1 = we := by
  simp only [requestWord]
  rw [extract_append_high _ _ _ (by omega), extract_append_high _ _ _ (by omega), extract_append_high _ _ _ (by omega)]
  exact extract_all we

@[simp] theorem requestWord_sel : (requestWord we sel lo v).extractLsb' 34 3 = sel := by
  simp only [requestWord]
  rw [extract_append_high _ _ _ (by omega), extract_append_high _ _ _ (by omega), extract_append_low _ _ _ (by omega)]
  exact extract_all sel

@[simp] theorem requestWord_lo : (requestWord we sel lo v).extractLsb' 32 2 = lo := by
  simp only [requestWord]
  rw [extract_append_high _ _ _ (by omega), extract_append_low _ _ _ (by omega)]
  exact extract_all lo

@[simp] theorem requestWord_data : (requestWord we sel lo v).extractLsb' 0 32 = v := by
  simp only [requestWord]
  rw [extract_append_low _ _ _ (by omega)]
  exact extract_all v

/-- A mask of all ones on `we` and `off[4:2]` and of zeros on `off[1:0]` works part by part. -/
theorem requestWord_and_parts (m : Word) :
    requestWord we sel lo v &&& requestWord (BitVec.allOnes 1) (BitVec.allOnes 3) 0#2 m =
      requestWord we sel 0#2 (v &&& m) := by
  have h : (we ++ sel ++ lo ++ v) &&& (BitVec.allOnes 1 ++ BitVec.allOnes 3 ++ 0#2 ++ m) =
      we ++ sel ++ 0#2 ++ (v &&& m) := by
    simp only [BitVec.and_append, BitVec.and_allOnes, BitVec.and_zero]
  exact h

/-- The mask 0x3C00000000 keeps `we` and `off[4:2]`. -/
theorem requestWord_mask : requestWord we sel lo v &&& 0x3C00000000#38 = requestWord we sel 0#2 0#32 := by
  rw [show (0x3C00000000#38 : RequestWord) = requestWord (BitVec.allOnes 1) (BitVec.allOnes 3) 0#2 0#32 from by decide,
    requestWord_and_parts, BitVec.and_zero]

/-- The mask 0x3C00000007 keeps CODE as well. -/
theorem requestWord_mask_code (ign : BitVec 29) (c : Code) :
    requestWord we sel lo (ign ++ c) &&& 0x3C00000007#38 = requestWord we sel 0#2 (0#29 ++ c) := by
  rw [show (0x3C00000007#38 : RequestWord) =
    requestWord (BitVec.allOnes 1) (BitVec.allOnes 3) 0#2 (0#29 ++ BitVec.allOnes 3) from by decide,
    requestWord_and_parts]
  have h : (ign ++ c) &&& (0#29 ++ BitVec.allOnes 3) = 0#29 ++ c := by
    simp only [BitVec.and_append, BitVec.and_allOnes, BitVec.and_zero]
  exact congrArg _ h

/-- The mask 0x3C00000004 keeps CODE[2] as well. -/
theorem requestWord_mask_code2 (ign : BitVec 29) (b : Bit) (c : BitVec 2) :
    requestWord we sel lo (ign ++ b ++ c) &&& 0x3C00000004#38 = requestWord we sel 0#2 (0#29 ++ b ++ 0#2) := by
  rw [show (0x3C00000004#38 : RequestWord) =
    requestWord (BitVec.allOnes 1) (BitVec.allOnes 3) 0#2 (0#29 ++ BitVec.allOnes 1 ++ 0#2) from by decide,
    requestWord_and_parts]
  have h : (ign ++ b ++ c) &&& (0#29 ++ BitVec.allOnes 1 ++ 0#2) = 0#29 ++ b ++ 0#2 := by
    simp only [BitVec.and_append, BitVec.and_allOnes, BitVec.and_zero]
  exact congrArg _ h

end fields

section data
variable (ign : BitVec 29) (c : Code)

@[simp] theorem commandData_code : (ign ++ c).extractLsb' 0 3 = c := by
  rw [extract_append_low _ _ _ (by omega)]
  exact extract_all c

@[simp] theorem commandData_ign : (ign ++ c).extractLsb' 3 29 = ign := by
  rw [extract_append_high _ _ _ (by omega)]
  exact extract_all ign

end data

/-- The decoder on a request word given by its fields. -/
theorem decodeBus_write (sel : BitVec 3) (lo : BitVec 2) (v : Word) :
    decodeBus (requestWord 1#1 sel lo v) = decodeWrite sel lo v := by
  simp [decodeBus]

theorem decodeBus_read (sel : BitVec 3) (lo : BitVec 2) (v : Word) :
    decodeBus (requestWord 0#1 sel lo v) = decodeRead sel lo v := by
  simp [decodeBus]

/-- A mask on a request word, as a number. -/
theorem toNat_mask {w m r : RequestWord} (h : w &&& m = r) : w.toNat &&& m.toNat = r.toNat := by
  rw [← h, BitVec.toNat_and]

/-- A phase code has no bits outside the mask of the tick rows. -/
theorem code_mask (c : Code) : c.toNat &&& 0x7 = c.toNat := by revert c; decide

end Sys2Proof
end

