-- ==== Sys2Proof/Laws/State.lean ====
section
/-! SUPPORT. One lemma for each field and each update of the state: what the update makes of the field. -/

namespace Sys2Proof.Machine

section setCnt
variable (s : State) (c : TickCount)
@[simp] theorem State.setCnt_phase : (s.setCnt c).phase = s.phase := rfl
@[simp] theorem State.setCnt_cnt : (s.setCnt c).cnt = c := rfl
@[simp] theorem State.setCnt_bitidx : (s.setCnt c).bitidx = s.bitidx := rfl
@[simp] theorem State.setCnt_shift : (s.setCnt c).shift = s.shift := rfl
@[simp] theorem State.setCnt_data : (s.setCnt c).data = s.data := rfl
@[simp] theorem State.setCnt_count : (s.setCnt c).count = s.count := rfl
@[simp] theorem State.setCnt_thresh : (s.setCnt c).thresh = s.thresh := rfl
@[simp] theorem State.setCnt_ie : (s.setCnt c).ie = s.ie := rfl
@[simp] theorem State.setCnt_mlevel : (s.setCnt c).mlevel = s.mlevel := rfl
@[simp] theorem State.setCnt_mtimeout : (s.setCnt c).mtimeout = s.mtimeout := rfl
@[simp] theorem State.setCnt_done : (s.setCnt c).done = s.done := rfl
@[simp] theorem State.setCnt_cmderr : (s.setCnt c).cmderr = s.cmderr := rfl
@[simp] theorem State.setCnt_result : (s.setCnt c).result = s.result := rfl
@[simp] theorem State.setCnt_errphase : (s.setCnt c).errphase = s.errphase := rfl
@[simp] theorem State.setCnt_thrS : (s.setCnt c).thrS = s.thrS := rfl
@[simp] theorem State.setCnt_mlvlS : (s.setCnt c).mlvlS = s.mlvlS := rfl
@[simp] theorem State.setCnt_mtoS : (s.setCnt c).mtoS = s.mtoS := rfl
@[simp] theorem State.setCnt_tickgen : (s.setCnt c).tickgen = s.tickgen := rfl
@[simp] theorem State.setCnt_rdata : (s.setCnt c).rdata = s.rdata := rfl
@[simp] theorem State.setCnt_inputs : (s.setCnt c).inputs = s.inputs := rfl
@[simp] theorem State.setCnt_draws : (s.setCnt c).draws = s.draws := rfl
end setCnt

section setCount
variable (s : State) (c : TickCount)
@[simp] theorem State.setCount_phase : (s.setCount c).phase = s.phase := rfl
@[simp] theorem State.setCount_cnt : (s.setCount c).cnt = s.cnt := rfl
@[simp] theorem State.setCount_bitidx : (s.setCount c).bitidx = s.bitidx := rfl
@[simp] theorem State.setCount_shift : (s.setCount c).shift = s.shift := rfl
@[simp] theorem State.setCount_data : (s.setCount c).data = s.data := rfl
@[simp] theorem State.setCount_count : (s.setCount c).count = c := rfl
@[simp] theorem State.setCount_thresh : (s.setCount c).thresh = s.thresh := rfl
@[simp] theorem State.setCount_ie : (s.setCount c).ie = s.ie := rfl
@[simp] theorem State.setCount_mlevel : (s.setCount c).mlevel = s.mlevel := rfl
@[simp] theorem State.setCount_mtimeout : (s.setCount c).mtimeout = s.mtimeout := rfl
@[simp] theorem State.setCount_done : (s.setCount c).done = s.done := rfl
@[simp] theorem State.setCount_cmderr : (s.setCount c).cmderr = s.cmderr := rfl
@[simp] theorem State.setCount_result : (s.setCount c).result = s.result := rfl
@[simp] theorem State.setCount_errphase : (s.setCount c).errphase = s.errphase := rfl
@[simp] theorem State.setCount_thrS : (s.setCount c).thrS = s.thrS := rfl
@[simp] theorem State.setCount_mlvlS : (s.setCount c).mlvlS = s.mlvlS := rfl
@[simp] theorem State.setCount_mtoS : (s.setCount c).mtoS = s.mtoS := rfl
@[simp] theorem State.setCount_tickgen : (s.setCount c).tickgen = s.tickgen := rfl
@[simp] theorem State.setCount_rdata : (s.setCount c).rdata = s.rdata := rfl
@[simp] theorem State.setCount_inputs : (s.setCount c).inputs = s.inputs := rfl
@[simp] theorem State.setCount_draws : (s.setCount c).draws = s.draws := rfl
end setCount

section setRdata
variable (s : State) (w : Word)
@[simp] theorem State.setRdata_phase : (s.setRdata w).phase = s.phase := rfl
@[simp] theorem State.setRdata_cnt : (s.setRdata w).cnt = s.cnt := rfl
@[simp] theorem State.setRdata_bitidx : (s.setRdata w).bitidx = s.bitidx := rfl
@[simp] theorem State.setRdata_shift : (s.setRdata w).shift = s.shift := rfl
@[simp] theorem State.setRdata_data : (s.setRdata w).data = s.data := rfl
@[simp] theorem State.setRdata_count : (s.setRdata w).count = s.count := rfl
@[simp] theorem State.setRdata_thresh : (s.setRdata w).thresh = s.thresh := rfl
@[simp] theorem State.setRdata_ie : (s.setRdata w).ie = s.ie := rfl
@[simp] theorem State.setRdata_mlevel : (s.setRdata w).mlevel = s.mlevel := rfl
@[simp] theorem State.setRdata_mtimeout : (s.setRdata w).mtimeout = s.mtimeout := rfl
@[simp] theorem State.setRdata_done : (s.setRdata w).done = s.done := rfl
@[simp] theorem State.setRdata_cmderr : (s.setRdata w).cmderr = s.cmderr := rfl
@[simp] theorem State.setRdata_result : (s.setRdata w).result = s.result := rfl
@[simp] theorem State.setRdata_errphase : (s.setRdata w).errphase = s.errphase := rfl
@[simp] theorem State.setRdata_thrS : (s.setRdata w).thrS = s.thrS := rfl
@[simp] theorem State.setRdata_mlvlS : (s.setRdata w).mlvlS = s.mlvlS := rfl
@[simp] theorem State.setRdata_mtoS : (s.setRdata w).mtoS = s.mtoS := rfl
@[simp] theorem State.setRdata_tickgen : (s.setRdata w).tickgen = s.tickgen := rfl
@[simp] theorem State.setRdata_rdata : (s.setRdata w).rdata = w := rfl
@[simp] theorem State.setRdata_inputs : (s.setRdata w).inputs = s.inputs := rfl
@[simp] theorem State.setRdata_draws : (s.setRdata w).draws = s.draws := rfl
end setRdata

section enter
variable (s : State) (q : Phase)
@[simp] theorem State.enter_phase : (s.enter q).phase = q := rfl
@[simp] theorem State.enter_cnt : (s.enter q).cnt = 0#17 := rfl
@[simp] theorem State.enter_bitidx : (s.enter q).bitidx = s.bitidx := rfl
@[simp] theorem State.enter_shift : (s.enter q).shift = s.shift := rfl
@[simp] theorem State.enter_data : (s.enter q).data = s.data := rfl
@[simp] theorem State.enter_count : (s.enter q).count = s.count := rfl
@[simp] theorem State.enter_thresh : (s.enter q).thresh = s.thresh := rfl
@[simp] theorem State.enter_ie : (s.enter q).ie = s.ie := rfl
@[simp] theorem State.enter_mlevel : (s.enter q).mlevel = s.mlevel := rfl
@[simp] theorem State.enter_mtimeout : (s.enter q).mtimeout = s.mtimeout := rfl
@[simp] theorem State.enter_done : (s.enter q).done = s.done := rfl
@[simp] theorem State.enter_cmderr : (s.enter q).cmderr = s.cmderr := rfl
@[simp] theorem State.enter_result : (s.enter q).result = s.result := rfl
@[simp] theorem State.enter_errphase : (s.enter q).errphase = s.errphase := rfl
@[simp] theorem State.enter_thrS : (s.enter q).thrS = s.thrS := rfl
@[simp] theorem State.enter_mlvlS : (s.enter q).mlvlS = s.mlvlS := rfl
@[simp] theorem State.enter_mtoS : (s.enter q).mtoS = s.mtoS := rfl
@[simp] theorem State.enter_tickgen : (s.enter q).tickgen = s.tickgen := rfl
@[simp] theorem State.enter_rdata : (s.enter q).rdata = s.rdata := rfl
@[simp] theorem State.enter_inputs : (s.enter q).inputs = s.inputs := rfl
@[simp] theorem State.enter_draws : (s.enter q).draws = s.draws := rfl
end enter

section storeBit
variable (s : State) (b : Bit)
@[simp] theorem State.storeBit_phase : (s.storeBit b).phase = s.phase := rfl
@[simp] theorem State.storeBit_cnt : (s.storeBit b).cnt = s.cnt := rfl
@[simp] theorem State.storeBit_bitidx : (s.storeBit b).bitidx = s.bitidx + 1#6 := rfl
@[simp] theorem State.storeBit_shift : (s.storeBit b).shift = placeBit s.shift s.bitidx b := rfl
@[simp] theorem State.storeBit_data : (s.storeBit b).data = s.data := rfl
@[simp] theorem State.storeBit_count : (s.storeBit b).count = s.count := rfl
@[simp] theorem State.storeBit_thresh : (s.storeBit b).thresh = s.thresh := rfl
@[simp] theorem State.storeBit_ie : (s.storeBit b).ie = s.ie := rfl
@[simp] theorem State.storeBit_mlevel : (s.storeBit b).mlevel = s.mlevel := rfl
@[simp] theorem State.storeBit_mtimeout : (s.storeBit b).mtimeout = s.mtimeout := rfl
@[simp] theorem State.storeBit_done : (s.storeBit b).done = s.done := rfl
@[simp] theorem State.storeBit_cmderr : (s.storeBit b).cmderr = s.cmderr := rfl
@[simp] theorem State.storeBit_result : (s.storeBit b).result = s.result := rfl
@[simp] theorem State.storeBit_errphase : (s.storeBit b).errphase = s.errphase := rfl
@[simp] theorem State.storeBit_thrS : (s.storeBit b).thrS = s.thrS := rfl
@[simp] theorem State.storeBit_mlvlS : (s.storeBit b).mlvlS = s.mlvlS := rfl
@[simp] theorem State.storeBit_mtoS : (s.storeBit b).mtoS = s.mtoS := rfl
@[simp] theorem State.storeBit_tickgen : (s.storeBit b).tickgen = s.tickgen := rfl
@[simp] theorem State.storeBit_rdata : (s.storeBit b).rdata = s.rdata := rfl
@[simp] theorem State.storeBit_inputs : (s.storeBit b).inputs = s.inputs := rfl
@[simp] theorem State.storeBit_draws : (s.storeBit b).draws = s.draws := rfl
end storeBit

section commitData
variable (s : State)
@[simp] theorem State.commitData_phase : s.commitData.phase = s.phase := rfl
@[simp] theorem State.commitData_cnt : s.commitData.cnt = s.cnt := rfl
@[simp] theorem State.commitData_bitidx : s.commitData.bitidx = s.bitidx := rfl
@[simp] theorem State.commitData_shift : s.commitData.shift = s.shift := rfl
@[simp] theorem State.commitData_data : s.commitData.data = s.shift := rfl
@[simp] theorem State.commitData_count : s.commitData.count = s.count := rfl
@[simp] theorem State.commitData_thresh : s.commitData.thresh = s.thresh := rfl
@[simp] theorem State.commitData_ie : s.commitData.ie = s.ie := rfl
@[simp] theorem State.commitData_mlevel : s.commitData.mlevel = s.mlevel := rfl
@[simp] theorem State.commitData_mtimeout : s.commitData.mtimeout = s.mtimeout := rfl
@[simp] theorem State.commitData_done : s.commitData.done = s.done := rfl
@[simp] theorem State.commitData_cmderr : s.commitData.cmderr = s.cmderr := rfl
@[simp] theorem State.commitData_result : s.commitData.result = s.result := rfl
@[simp] theorem State.commitData_errphase : s.commitData.errphase = s.errphase := rfl
@[simp] theorem State.commitData_thrS : s.commitData.thrS = s.thrS := rfl
@[simp] theorem State.commitData_mlvlS : s.commitData.mlvlS = s.mlvlS := rfl
@[simp] theorem State.commitData_mtoS : s.commitData.mtoS = s.mtoS := rfl
@[simp] theorem State.commitData_tickgen : s.commitData.tickgen = s.tickgen := rfl
@[simp] theorem State.commitData_rdata : s.commitData.rdata = s.rdata := rfl
@[simp] theorem State.commitData_inputs : s.commitData.inputs = s.inputs := rfl
@[simp] theorem State.commitData_draws : s.commitData.draws = s.draws := rfl
end commitData

section endCommand
variable (s : State) (r : Result) (e : Code)
@[simp] theorem State.endCommand_phase : (s.endCommand r e).phase = .idle := rfl
@[simp] theorem State.endCommand_cnt : (s.endCommand r e).cnt = 0#17 := rfl
@[simp] theorem State.endCommand_bitidx : (s.endCommand r e).bitidx = s.bitidx := rfl
@[simp] theorem State.endCommand_shift : (s.endCommand r e).shift = s.shift := rfl
@[simp] theorem State.endCommand_data : (s.endCommand r e).data = s.data := rfl
@[simp] theorem State.endCommand_count : (s.endCommand r e).count = s.count := rfl
@[simp] theorem State.endCommand_thresh : (s.endCommand r e).thresh = s.thresh := rfl
@[simp] theorem State.endCommand_ie : (s.endCommand r e).ie = s.ie := rfl
@[simp] theorem State.endCommand_mlevel : (s.endCommand r e).mlevel = s.mlevel := rfl
@[simp] theorem State.endCommand_mtimeout : (s.endCommand r e).mtimeout = s.mtimeout := rfl
@[simp] theorem State.endCommand_done : (s.endCommand r e).done = 1#1 := rfl
@[simp] theorem State.endCommand_cmderr : (s.endCommand r e).cmderr = s.cmderr := rfl
@[simp] theorem State.endCommand_result : (s.endCommand r e).result = r := rfl
@[simp] theorem State.endCommand_errphase : (s.endCommand r e).errphase = e := rfl
@[simp] theorem State.endCommand_thrS : (s.endCommand r e).thrS = s.thrS := rfl
@[simp] theorem State.endCommand_mlvlS : (s.endCommand r e).mlvlS = s.mlvlS := rfl
@[simp] theorem State.endCommand_mtoS : (s.endCommand r e).mtoS = s.mtoS := rfl
@[simp] theorem State.endCommand_tickgen : (s.endCommand r e).tickgen = s.tickgen := rfl
@[simp] theorem State.endCommand_rdata : (s.endCommand r e).rdata = s.rdata := rfl
@[simp] theorem State.endCommand_inputs : (s.endCommand r e).inputs = s.inputs := rfl
@[simp] theorem State.endCommand_draws : (s.endCommand r e).draws = s.draws := rfl
end endCommand

section acceptRead
variable (s : State)
@[simp] theorem State.acceptRead_phase : s.acceptRead.phase = .startLow := rfl
@[simp] theorem State.acceptRead_cnt : s.acceptRead.cnt = 0#17 := rfl
@[simp] theorem State.acceptRead_bitidx : s.acceptRead.bitidx = 0#6 := rfl
@[simp] theorem State.acceptRead_shift : s.acceptRead.shift = 0#40 := rfl
@[simp] theorem State.acceptRead_data : s.acceptRead.data = s.data := rfl
@[simp] theorem State.acceptRead_count : s.acceptRead.count = 0#17 := rfl
@[simp] theorem State.acceptRead_thresh : s.acceptRead.thresh = s.thresh := rfl
@[simp] theorem State.acceptRead_ie : s.acceptRead.ie = s.ie := rfl
@[simp] theorem State.acceptRead_mlevel : s.acceptRead.mlevel = s.mlevel := rfl
@[simp] theorem State.acceptRead_mtimeout : s.acceptRead.mtimeout = s.mtimeout := rfl
@[simp] theorem State.acceptRead_done : s.acceptRead.done = 0#1 := rfl
@[simp] theorem State.acceptRead_cmderr : s.acceptRead.cmderr = s.cmderr := rfl
@[simp] theorem State.acceptRead_result : s.acceptRead.result = .none := rfl
@[simp] theorem State.acceptRead_errphase : s.acceptRead.errphase = 0#3 := rfl
@[simp] theorem State.acceptRead_thrS : s.acceptRead.thrS = s.thresh := rfl
@[simp] theorem State.acceptRead_mlvlS : s.acceptRead.mlvlS = s.mlvlS := rfl
@[simp] theorem State.acceptRead_mtoS : s.acceptRead.mtoS = s.mtoS := rfl
@[simp] theorem State.acceptRead_tickgen : s.acceptRead.tickgen = 0 := rfl
@[simp] theorem State.acceptRead_rdata : s.acceptRead.rdata = s.rdata := rfl
@[simp] theorem State.acceptRead_inputs : s.acceptRead.inputs = s.inputs := rfl
@[simp] theorem State.acceptRead_draws : s.acceptRead.draws = s.draws := rfl
end acceptRead

section acceptMeasure
variable (s : State)
@[simp] theorem State.acceptMeasure_phase : s.acceptMeasure.phase = .measure := rfl
@[simp] theorem State.acceptMeasure_cnt : s.acceptMeasure.cnt = 0#17 := rfl
@[simp] theorem State.acceptMeasure_bitidx : s.acceptMeasure.bitidx = s.bitidx := rfl
@[simp] theorem State.acceptMeasure_shift : s.acceptMeasure.shift = s.shift := rfl
@[simp] theorem State.acceptMeasure_data : s.acceptMeasure.data = s.data := rfl
@[simp] theorem State.acceptMeasure_count : s.acceptMeasure.count = 0#17 := rfl
@[simp] theorem State.acceptMeasure_thresh : s.acceptMeasure.thresh = s.thresh := rfl
@[simp] theorem State.acceptMeasure_ie : s.acceptMeasure.ie = s.ie := rfl
@[simp] theorem State.acceptMeasure_mlevel : s.acceptMeasure.mlevel = s.mlevel := rfl
@[simp] theorem State.acceptMeasure_mtimeout : s.acceptMeasure.mtimeout = s.mtimeout := rfl
@[simp] theorem State.acceptMeasure_done : s.acceptMeasure.done = 0#1 := rfl
@[simp] theorem State.acceptMeasure_cmderr : s.acceptMeasure.cmderr = s.cmderr := rfl
@[simp] theorem State.acceptMeasure_result : s.acceptMeasure.result = .none := rfl
@[simp] theorem State.acceptMeasure_errphase : s.acceptMeasure.errphase = 0#3 := rfl
@[simp] theorem State.acceptMeasure_thrS : s.acceptMeasure.thrS = s.thrS := rfl
@[simp] theorem State.acceptMeasure_mlvlS : s.acceptMeasure.mlvlS = s.mlevel := rfl
@[simp] theorem State.acceptMeasure_mtoS : s.acceptMeasure.mtoS = s.mtimeout := rfl
@[simp] theorem State.acceptMeasure_tickgen : s.acceptMeasure.tickgen = 0 := rfl
@[simp] theorem State.acceptMeasure_rdata : s.acceptMeasure.rdata = s.rdata := rfl
@[simp] theorem State.acceptMeasure_inputs : s.acceptMeasure.inputs = s.inputs := rfl
@[simp] theorem State.acceptMeasure_draws : s.acceptMeasure.draws = s.draws := rfl
end acceptMeasure

section reject
variable (s : State)
@[simp] theorem State.reject_phase : s.reject.phase = s.phase := rfl
@[simp] theorem State.reject_cnt : s.reject.cnt = s.cnt := rfl
@[simp] theorem State.reject_bitidx : s.reject.bitidx = s.bitidx := rfl
@[simp] theorem State.reject_shift : s.reject.shift = s.shift := rfl
@[simp] theorem State.reject_data : s.reject.data = s.data := rfl
@[simp] theorem State.reject_count : s.reject.count = s.count := rfl
@[simp] theorem State.reject_thresh : s.reject.thresh = s.thresh := rfl
@[simp] theorem State.reject_ie : s.reject.ie = s.ie := rfl
@[simp] theorem State.reject_mlevel : s.reject.mlevel = s.mlevel := rfl
@[simp] theorem State.reject_mtimeout : s.reject.mtimeout = s.mtimeout := rfl
@[simp] theorem State.reject_done : s.reject.done = s.done := rfl
@[simp] theorem State.reject_cmderr : s.reject.cmderr = 1#1 := rfl
@[simp] theorem State.reject_result : s.reject.result = s.result := rfl
@[simp] theorem State.reject_errphase : s.reject.errphase = s.errphase := rfl
@[simp] theorem State.reject_thrS : s.reject.thrS = s.thrS := rfl
@[simp] theorem State.reject_mlvlS : s.reject.mlvlS = s.mlvlS := rfl
@[simp] theorem State.reject_mtoS : s.reject.mtoS = s.mtoS := rfl
@[simp] theorem State.reject_tickgen : s.reject.tickgen = s.tickgen := rfl
@[simp] theorem State.reject_rdata : s.reject.rdata = s.rdata := rfl
@[simp] theorem State.reject_inputs : s.reject.inputs = s.inputs := rfl
@[simp] theorem State.reject_draws : s.reject.draws = s.draws := rfl
end reject

section setConfig
variable (s : State) (mtimeout : BitVec 16) (mlevel ie : Bit) (thresh : Byte)
@[simp] theorem State.setConfig_phase : (s.setConfig mtimeout mlevel ie thresh).phase = s.phase := rfl
@[simp] theorem State.setConfig_cnt : (s.setConfig mtimeout mlevel ie thresh).cnt = s.cnt := rfl
@[simp] theorem State.setConfig_bitidx : (s.setConfig mtimeout mlevel ie thresh).bitidx = s.bitidx := rfl
@[simp] theorem State.setConfig_shift : (s.setConfig mtimeout mlevel ie thresh).shift = s.shift := rfl
@[simp] theorem State.setConfig_data : (s.setConfig mtimeout mlevel ie thresh).data = s.data := rfl
@[simp] theorem State.setConfig_count : (s.setConfig mtimeout mlevel ie thresh).count = s.count := rfl
@[simp] theorem State.setConfig_thresh : (s.setConfig mtimeout mlevel ie thresh).thresh = thresh := rfl
@[simp] theorem State.setConfig_ie : (s.setConfig mtimeout mlevel ie thresh).ie = ie := rfl
@[simp] theorem State.setConfig_mlevel : (s.setConfig mtimeout mlevel ie thresh).mlevel = mlevel := rfl
@[simp] theorem State.setConfig_mtimeout : (s.setConfig mtimeout mlevel ie thresh).mtimeout = mtimeout := rfl
@[simp] theorem State.setConfig_done : (s.setConfig mtimeout mlevel ie thresh).done = s.done := rfl
@[simp] theorem State.setConfig_cmderr : (s.setConfig mtimeout mlevel ie thresh).cmderr = s.cmderr := rfl
@[simp] theorem State.setConfig_result : (s.setConfig mtimeout mlevel ie thresh).result = s.result := rfl
@[simp] theorem State.setConfig_errphase : (s.setConfig mtimeout mlevel ie thresh).errphase = s.errphase := rfl
@[simp] theorem State.setConfig_thrS : (s.setConfig mtimeout mlevel ie thresh).thrS = s.thrS := rfl
@[simp] theorem State.setConfig_mlvlS : (s.setConfig mtimeout mlevel ie thresh).mlvlS = s.mlvlS := rfl
@[simp] theorem State.setConfig_mtoS : (s.setConfig mtimeout mlevel ie thresh).mtoS = s.mtoS := rfl
@[simp] theorem State.setConfig_tickgen : (s.setConfig mtimeout mlevel ie thresh).tickgen = s.tickgen := rfl
@[simp] theorem State.setConfig_rdata : (s.setConfig mtimeout mlevel ie thresh).rdata = s.rdata := rfl
@[simp] theorem State.setConfig_inputs : (s.setConfig mtimeout mlevel ie thresh).inputs = s.inputs := rfl
@[simp] theorem State.setConfig_draws : (s.setConfig mtimeout mlevel ie thresh).draws = s.draws := rfl
end setConfig

section clearFlags
variable (s : State) (clrCmderr clrDone : Bit)
@[simp] theorem State.clearFlags_phase : (s.clearFlags clrCmderr clrDone).phase = s.phase := rfl
@[simp] theorem State.clearFlags_cnt : (s.clearFlags clrCmderr clrDone).cnt = s.cnt := rfl
@[simp] theorem State.clearFlags_bitidx : (s.clearFlags clrCmderr clrDone).bitidx = s.bitidx := rfl
@[simp] theorem State.clearFlags_shift : (s.clearFlags clrCmderr clrDone).shift = s.shift := rfl
@[simp] theorem State.clearFlags_data : (s.clearFlags clrCmderr clrDone).data = s.data := rfl
@[simp] theorem State.clearFlags_count : (s.clearFlags clrCmderr clrDone).count = s.count := rfl
@[simp] theorem State.clearFlags_thresh : (s.clearFlags clrCmderr clrDone).thresh = s.thresh := rfl
@[simp] theorem State.clearFlags_ie : (s.clearFlags clrCmderr clrDone).ie = s.ie := rfl
@[simp] theorem State.clearFlags_mlevel : (s.clearFlags clrCmderr clrDone).mlevel = s.mlevel := rfl
@[simp] theorem State.clearFlags_mtimeout : (s.clearFlags clrCmderr clrDone).mtimeout = s.mtimeout := rfl
@[simp] theorem State.clearFlags_done : (s.clearFlags clrCmderr clrDone).done = if clrDone = 1#1 then 0#1 else s.done := rfl
@[simp] theorem State.clearFlags_cmderr : (s.clearFlags clrCmderr clrDone).cmderr = if clrCmderr = 1#1 then 0#1 else s.cmderr := rfl
@[simp] theorem State.clearFlags_result : (s.clearFlags clrCmderr clrDone).result = s.result := rfl
@[simp] theorem State.clearFlags_errphase : (s.clearFlags clrCmderr clrDone).errphase = s.errphase := rfl
@[simp] theorem State.clearFlags_thrS : (s.clearFlags clrCmderr clrDone).thrS = s.thrS := rfl
@[simp] theorem State.clearFlags_mlvlS : (s.clearFlags clrCmderr clrDone).mlvlS = s.mlvlS := rfl
@[simp] theorem State.clearFlags_mtoS : (s.clearFlags clrCmderr clrDone).mtoS = s.mtoS := rfl
@[simp] theorem State.clearFlags_tickgen : (s.clearFlags clrCmderr clrDone).tickgen = s.tickgen := rfl
@[simp] theorem State.clearFlags_rdata : (s.clearFlags clrCmderr clrDone).rdata = s.rdata := rfl
@[simp] theorem State.clearFlags_inputs : (s.clearFlags clrCmderr clrDone).inputs = s.inputs := rfl
@[simp] theorem State.clearFlags_draws : (s.clearFlags clrCmderr clrDone).draws = s.draws := rfl
end clearFlags

section setInputs
variable (s : State) (es : List Event)
@[simp] theorem State.setInputs_phase : (s.setInputs es).phase = s.phase := rfl
@[simp] theorem State.setInputs_cnt : (s.setInputs es).cnt = s.cnt := rfl
@[simp] theorem State.setInputs_bitidx : (s.setInputs es).bitidx = s.bitidx := rfl
@[simp] theorem State.setInputs_shift : (s.setInputs es).shift = s.shift := rfl
@[simp] theorem State.setInputs_data : (s.setInputs es).data = s.data := rfl
@[simp] theorem State.setInputs_count : (s.setInputs es).count = s.count := rfl
@[simp] theorem State.setInputs_thresh : (s.setInputs es).thresh = s.thresh := rfl
@[simp] theorem State.setInputs_ie : (s.setInputs es).ie = s.ie := rfl
@[simp] theorem State.setInputs_mlevel : (s.setInputs es).mlevel = s.mlevel := rfl
@[simp] theorem State.setInputs_mtimeout : (s.setInputs es).mtimeout = s.mtimeout := rfl
@[simp] theorem State.setInputs_done : (s.setInputs es).done = s.done := rfl
@[simp] theorem State.setInputs_cmderr : (s.setInputs es).cmderr = s.cmderr := rfl
@[simp] theorem State.setInputs_result : (s.setInputs es).result = s.result := rfl
@[simp] theorem State.setInputs_errphase : (s.setInputs es).errphase = s.errphase := rfl
@[simp] theorem State.setInputs_thrS : (s.setInputs es).thrS = s.thrS := rfl
@[simp] theorem State.setInputs_mlvlS : (s.setInputs es).mlvlS = s.mlvlS := rfl
@[simp] theorem State.setInputs_mtoS : (s.setInputs es).mtoS = s.mtoS := rfl
@[simp] theorem State.setInputs_tickgen : (s.setInputs es).tickgen = s.tickgen := rfl
@[simp] theorem State.setInputs_rdata : (s.setInputs es).rdata = s.rdata := rfl
@[simp] theorem State.setInputs_inputs : (s.setInputs es).inputs = es := rfl
@[simp] theorem State.setInputs_draws : (s.setInputs es).draws = s.draws := rfl
end setInputs

section countDraw
variable (s : State)
@[simp] theorem State.countDraw_phase : s.countDraw.phase = s.phase := rfl
@[simp] theorem State.countDraw_cnt : s.countDraw.cnt = s.cnt := rfl
@[simp] theorem State.countDraw_bitidx : s.countDraw.bitidx = s.bitidx := rfl
@[simp] theorem State.countDraw_shift : s.countDraw.shift = s.shift := rfl
@[simp] theorem State.countDraw_data : s.countDraw.data = s.data := rfl
@[simp] theorem State.countDraw_count : s.countDraw.count = s.count := rfl
@[simp] theorem State.countDraw_thresh : s.countDraw.thresh = s.thresh := rfl
@[simp] theorem State.countDraw_ie : s.countDraw.ie = s.ie := rfl
@[simp] theorem State.countDraw_mlevel : s.countDraw.mlevel = s.mlevel := rfl
@[simp] theorem State.countDraw_mtimeout : s.countDraw.mtimeout = s.mtimeout := rfl
@[simp] theorem State.countDraw_done : s.countDraw.done = s.done := rfl
@[simp] theorem State.countDraw_cmderr : s.countDraw.cmderr = s.cmderr := rfl
@[simp] theorem State.countDraw_result : s.countDraw.result = s.result := rfl
@[simp] theorem State.countDraw_errphase : s.countDraw.errphase = s.errphase := rfl
@[simp] theorem State.countDraw_thrS : s.countDraw.thrS = s.thrS := rfl
@[simp] theorem State.countDraw_mlvlS : s.countDraw.mlvlS = s.mlvlS := rfl
@[simp] theorem State.countDraw_mtoS : s.countDraw.mtoS = s.mtoS := rfl
@[simp] theorem State.countDraw_tickgen : s.countDraw.tickgen = s.tickgen := rfl
@[simp] theorem State.countDraw_rdata : s.countDraw.rdata = s.rdata := rfl
@[simp] theorem State.countDraw_inputs : s.countDraw.inputs = s.inputs := rfl
@[simp] theorem State.countDraw_draws : s.countDraw.draws = s.draws + 1 := rfl
end countDraw

section setTickgen
variable (s : State) (n : Nat)
@[simp] theorem State.setTickgen_phase : (s.setTickgen n).phase = s.phase := rfl
@[simp] theorem State.setTickgen_cnt : (s.setTickgen n).cnt = s.cnt := rfl
@[simp] theorem State.setTickgen_bitidx : (s.setTickgen n).bitidx = s.bitidx := rfl
@[simp] theorem State.setTickgen_shift : (s.setTickgen n).shift = s.shift := rfl
@[simp] theorem State.setTickgen_data : (s.setTickgen n).data = s.data := rfl
@[simp] theorem State.setTickgen_count : (s.setTickgen n).count = s.count := rfl
@[simp] theorem State.setTickgen_thresh : (s.setTickgen n).thresh = s.thresh := rfl
@[simp] theorem State.setTickgen_ie : (s.setTickgen n).ie = s.ie := rfl
@[simp] theorem State.setTickgen_mlevel : (s.setTickgen n).mlevel = s.mlevel := rfl
@[simp] theorem State.setTickgen_mtimeout : (s.setTickgen n).mtimeout = s.mtimeout := rfl
@[simp] theorem State.setTickgen_done : (s.setTickgen n).done = s.done := rfl
@[simp] theorem State.setTickgen_cmderr : (s.setTickgen n).cmderr = s.cmderr := rfl
@[simp] theorem State.setTickgen_result : (s.setTickgen n).result = s.result := rfl
@[simp] theorem State.setTickgen_errphase : (s.setTickgen n).errphase = s.errphase := rfl
@[simp] theorem State.setTickgen_thrS : (s.setTickgen n).thrS = s.thrS := rfl
@[simp] theorem State.setTickgen_mlvlS : (s.setTickgen n).mlvlS = s.mlvlS := rfl
@[simp] theorem State.setTickgen_mtoS : (s.setTickgen n).mtoS = s.mtoS := rfl
@[simp] theorem State.setTickgen_tickgen : (s.setTickgen n).tickgen = n := rfl
@[simp] theorem State.setTickgen_rdata : (s.setTickgen n).rdata = s.rdata := rfl
@[simp] theorem State.setTickgen_inputs : (s.setTickgen n).inputs = s.inputs := rfl
@[simp] theorem State.setTickgen_draws : (s.setTickgen n).draws = s.draws := rfl
end setTickgen

section resetBlock
variable (s : State)
@[simp] theorem State.resetBlock_phase : s.resetBlock.phase = State.reset.phase := rfl
@[simp] theorem State.resetBlock_cnt : s.resetBlock.cnt = State.reset.cnt := rfl
@[simp] theorem State.resetBlock_bitidx : s.resetBlock.bitidx = State.reset.bitidx := rfl
@[simp] theorem State.resetBlock_shift : s.resetBlock.shift = State.reset.shift := rfl
@[simp] theorem State.resetBlock_data : s.resetBlock.data = State.reset.data := rfl
@[simp] theorem State.resetBlock_count : s.resetBlock.count = State.reset.count := rfl
@[simp] theorem State.resetBlock_thresh : s.resetBlock.thresh = State.reset.thresh := rfl
@[simp] theorem State.resetBlock_ie : s.resetBlock.ie = State.reset.ie := rfl
@[simp] theorem State.resetBlock_mlevel : s.resetBlock.mlevel = State.reset.mlevel := rfl
@[simp] theorem State.resetBlock_mtimeout : s.resetBlock.mtimeout = State.reset.mtimeout := rfl
@[simp] theorem State.resetBlock_done : s.resetBlock.done = State.reset.done := rfl
@[simp] theorem State.resetBlock_cmderr : s.resetBlock.cmderr = State.reset.cmderr := rfl
@[simp] theorem State.resetBlock_result : s.resetBlock.result = State.reset.result := rfl
@[simp] theorem State.resetBlock_errphase : s.resetBlock.errphase = State.reset.errphase := rfl
@[simp] theorem State.resetBlock_thrS : s.resetBlock.thrS = State.reset.thrS := rfl
@[simp] theorem State.resetBlock_mlvlS : s.resetBlock.mlvlS = State.reset.mlvlS := rfl
@[simp] theorem State.resetBlock_mtoS : s.resetBlock.mtoS = State.reset.mtoS := rfl
@[simp] theorem State.resetBlock_tickgen : s.resetBlock.tickgen = State.reset.tickgen := rfl
@[simp] theorem State.resetBlock_rdata : s.resetBlock.rdata = State.reset.rdata := rfl
@[simp] theorem State.resetBlock_inputs : s.resetBlock.inputs = s.inputs := rfl
@[simp] theorem State.resetBlock_draws : s.resetBlock.draws = s.draws := rfl
end resetBlock

end Sys2Proof.Machine
end

