-- ==== Sys2Proof/Laws/PulseTimer.lean ====
section
/-! SUPPORT. What the Pulse Timer can do: PT_STEP's cases, the end of a command, and one lemma for each way a wait
tick can go (40_pulse_timer.md rules R101 to R104). The provers cite these instead of unfolding `waitTick`. -/

namespace Sys2Proof.Machine

/-- Two bits that differ from a third are equal. -/
theorem bit_eq_of_ne {a b c : Bit} (ha : a ≠ c) (hb : b ≠ c) : a = b := by
  revert a b c; decide

/-- A tick count below 2^17 - 1 counts on without wrapping. -/
theorem toNat_succ {c : TickCount} (h : c.toNat < 131071) : (c + 1#17).toNat = c.toNat + 1 := by
  rw [BitVec.toNat_add]; simp; omega

@[simp] theorem timeoutResult_ne_none (q : WaitPhase) : timeoutResult q ≠ .none := by cases q <;> decide

theorem ptStep_of_ne (o : CheckOrder) {smp lvl : Bit} (h : smp ≠ lvl) (bound : Nat) (cnt : TickCount) :
    ptStep o smp lvl bound cnt = .finished cnt := by
  simp [ptStep, h]

theorem ptStep_inc_self (lvl : Bit) (bound : Nat) (cnt : TickCount) :
    ptStep .incrementThenCheck lvl lvl bound cnt =
      if bound < (cnt + 1#17).toNat then .timeout (cnt + 1#17) else .cont (cnt + 1#17) := by
  simp [ptStep]

theorem ptStep_chk_self (lvl : Bit) (bound : Nat) (cnt : TickCount) :
    ptStep .checkThenIncrement lvl lvl bound cnt = if bound < cnt.toNat then .timeout cnt else .cont (cnt + 1#17) := by
  simp [ptStep]

/-- A sample at the expected level never ends a wait as completed, in either order. -/
theorem ptStep_self_ne_finished (o : CheckOrder) (lvl : Bit) (bound : Nat) (cnt c : TickCount) :
    ptStep o lvl lvl bound cnt ≠ .finished c := by
  cases o <;> simp only [ptStep_inc_self, ptStep_chk_self] <;> split <;> simp

/-- An evaluation on a sample at the wait's own level does not use ENTER: the chained evaluation is the last of
its tick (rule R104, "So ENTER recurses at most once per tick"). -/
theorem evalWait_enter_irrelevant (p : Params) {smp : Bit} {q : WaitPhase} {s : State} (h : smp = waitLevel s q)
    (k k' : WaitPhase → State → State) : evalWait p smp k q s = evalWait p smp k' q s := by
  subst h
  unfold evalWait
  split
  · rfl
  · rfl
  · rename_i hf; exact absurd hf (ptStep_self_ne_finished _ _ _ _ _)

section waits
variable {p : Params} {smp : Bit} {q : WaitPhase} {s : State}

/-- Continue: only CNT changes. -/
theorem evalWait_cont (k : WaitPhase → State → State) {c : TickCount}
    (h : ptStep p.order smp (waitLevel s q) (waitBound p s q) s.cnt = .cont c) :
    evalWait p smp k q s = s.setCnt c := by
  simp [evalWait, h]

/-- Timeout: COUNT is set and FAIL(q) follows. -/
theorem evalWait_timeout (k : WaitPhase → State → State) {c : TickCount}
    (h : ptStep p.order smp (waitLevel s q) (waitBound p s q) s.cnt = .timeout c) :
    evalWait p smp k q s = (s.setCount c).failWait q := by
  simp [evalWait, h]

/-- One sample at the expected level, the bound not reached. -/
theorem waitTick_count (ho : p.order = .incrementThenCheck) (hs : smp = waitLevel s q) (hc : s.cnt.toNat < 131071)
    (hb : s.cnt.toNat + 1 ≤ waitBound p s q) : waitTick p smp q s = s.setCnt (s.cnt + 1#17) := by
  refine evalWait_cont _ ?_
  rw [ho, hs, ptStep_inc_self, toNat_succ hc, if_neg (by omega)]

/-- One sample at the expected level, the bound exceeded. -/
theorem waitTick_timeout (ho : p.order = .incrementThenCheck) (hs : smp = waitLevel s q)
    (hc : s.cnt.toNat < 131071) (hb : waitBound p s q < s.cnt.toNat + 1) :
    waitTick p smp q s = (s.setCount (s.cnt + 1#17)).failWait q := by
  refine evalWait_timeout _ ?_
  rw [ho, hs, ptStep_inc_self, toNat_succ hc, if_pos (by omega)]

/-- The chained evaluation of a wait of a READ whose bound is at least 1: Continue(1) (rule R104). -/
theorem chainWait_count (hs : smp = waitLevel s q) (hb : 1 ≤ waitBound p s q) :
    chainWait p smp q s = (s.enter q.phase).setCnt 1#17 := by
  have hl : waitLevel (s.enter q.phase) q = smp := by cases q <;> simp_all [waitLevel]
  have hw : waitBound p (s.enter q.phase) q = waitBound p s q := by cases q <;> simp [waitBound]
  refine evalWait_cont _ ?_
  rw [hl, hw]
  cases p.order
  · rw [ptStep_inc_self, State.enter_cnt]
    exact if_neg (not_lt.mpr hb)
  · rw [ptStep_chk_self, State.enter_cnt, if_neg (by simp)]; rfl

/-- ACK_LOW completes on a sample of 1 (rule R131). -/
theorem waitTick_ackLow_done (hb : 1 ≤ p.toAckHigh) :
    waitTick p 1#1 .ackLow s = ((s.setCount s.cnt).enter .ackHigh).setCnt 1#17 := by
  simp only [waitTick, evalWait]
  rw [ptStep_of_ne _ (by simp [waitLevel])]
  exact chainWait_count rfl hb

/-- ACK_HIGH completes on a sample of 0 (rule R132). -/
theorem waitTick_ackHigh_done (hb : 1 ≤ p.toMark) :
    waitTick p 0#1 .ackHigh s = ((s.setCount s.cnt).enter .bitMark).setCnt 1#17 := by
  simp only [waitTick, evalWait]
  rw [ptStep_of_ne _ (by simp [waitLevel])]
  exact chainWait_count rfl hb

/-- BIT_MARK completes on a sample of 1 (rule R141). -/
theorem waitTick_bitMark_done (hb : 1 ≤ p.toHigh) :
    waitTick p 1#1 .bitMark s = ((s.setCount s.cnt).enter .bitHigh).setCnt 1#17 := by
  simp only [waitTick, evalWait]
  rw [ptStep_of_ne _ (by simp [waitLevel])]
  exact chainWait_count rfl hb

/-- BIT_HIGH completes on a sample of 0, and the frame goes on (rule R142). -/
theorem waitTick_bitHigh_done (hb : 1 ≤ p.toMark) (hn : (s.bitidx + 1#6).toNat ≠ p.nbits) :
    waitTick p 0#1 .bitHigh s =
      (((s.setCount s.cnt).storeBit (bitOf s.thrS s.cnt)).enter .bitMark).setCnt 1#17 := by
  simp only [waitTick, evalWait]
  rw [ptStep_of_ne _ (by simp [waitLevel])]
  refine (if_neg hn).trans ?_
  exact chainWait_count (q := .bitMark) rfl hb

/-- BIT_HIGH completes on a sample of 0, and the frame ends (rules R142 and R161). -/
theorem waitTick_bitHigh_last (hn : (s.bitidx + 1#6).toNat = p.nbits) :
    waitTick p 0#1 .bitHigh s = ((s.setCount s.cnt).storeBit (bitOf s.thrS s.cnt)).frameEnd := by
  simp only [waitTick, evalWait]
  rw [ptStep_of_ne _ (by simp [waitLevel])]
  exact if_pos hn

/-- MEASURE completes on a sample that differs from MLVL_S (rules R107 and R108). -/
theorem waitTick_measure_done (hs : smp ≠ s.mlvlS) :
    waitTick p smp .measure s = (s.setCount s.cnt).completeMeasure := by
  simp only [waitTick, evalWait, waitLevel]
  rw [ptStep_of_ne _ hs]

end waits

/-- The two ways a frame ends (44_checksum_validator.md rule R161). -/
theorem frameEnd_valid {s : State} (h : frameCheck s.shift = true) :
    s.frameEnd = s.commitData.endCommand .valid 0#3 := by
  simp [State.frameEnd, h]

theorem frameEnd_mismatch {s : State} (h : frameCheck s.shift = false) :
    s.frameEnd = s.endCommand .checksumMismatch 0#3 := by
  simp [State.frameEnd, h]

/-- The start sequence's tick: it counts, or it enters the next phase (41_start_sequence.md rules R121 and
R122). -/
theorem driveTick_count {d : Nat} {q : Phase} {s : State} (h : (s.cnt + 1#17).toNat ≠ d) :
    driveTick d q s = s.setCnt (s.cnt + 1#17) := if_neg h

theorem driveTick_enter {d : Nat} {q : Phase} {s : State} (h : (s.cnt + 1#17).toNat = d) :
    driveTick d q s = s.enter q := if_pos h

/-- A tick in IDLE changes nothing (45_host_interface.md rule R188). -/
theorem tick_idle {p : Params} {smp : Bit} {s : State} (h : s.phase = .idle) : tick p smp s = s := by
  simp [tick, h]

theorem ticks_idle {p : Params} (l : List Bit) {s : State} (h : s.phase = .idle) : ticks p l s = s := by
  induction l with
  | nil => rfl
  | cons a l ih => rw [ticks, tick_idle h, ih]

@[simp] theorem ticks_nil (p : Params) (s : State) : ticks p [] s = s := rfl
@[simp] theorem ticks_cons (p : Params) (a : Bit) (l : List Bit) (s : State) :
    ticks p (a :: l) s = ticks p l (tick p a s) := rfl

theorem ticks_append (p : Params) (l m : List Bit) (s : State) : ticks p (l ++ m) s = ticks p m (ticks p l s) := by
  induction l generalizing s with
  | nil => rfl
  | cons a l ih => simp [ih]

end Sys2Proof.Machine
end

