-- ==== Sys2Proof/Laws/Step.lean ====
section
/-! SUPPORT. What one step can do: one lemma for each kind of event, what a host operation can do to the state, and
the inversion of `step`. -/

namespace Sys2Proof.Machine

/-- Decoding the code of a phase gives that phase back. -/
@[simp] theorem Phase.ofCode_code (q : Phase) : Phase.ofCode q.code = q := by cases q <;> decide

theorem Phase.code_ofCode (c : Code) : (Phase.ofCode c).code = c := by revert c; decide

/-- The instruction a PHASE code selects runs the tick rule of that phase (45_host_interface.md rule R187). -/
theorem exec_decodeTick (smp : Bit) (s : State) : exec (decodeTick s.phase.code smp) s = .next (tick params smp s) := by
  cases h : s.phase <;> simp [Phase.code, decodeTick, exec, tick, h] <;> rfl

/-- What a host operation can make of the state (45_host_interface.md rules R170 to R185): nothing, an acceptance
in IDLE, a rejection, a CONFIG write, a STATUS write, or a word returned. -/
inductive HostEffect (s : State) : State → Prop where
  | same : HostEffect s s
  | read (h : s.phase = .idle) : HostEffect s s.acceptRead
  | measure (h : s.phase = .idle) : HostEffect s s.acceptMeasure
  | reject : HostEffect s s.reject
  | config (mtimeout : BitVec 16) (mlevel ie : Bit) (thresh : Byte) :
      HostEffect s (s.setConfig mtimeout mlevel ie thresh)
  | status (clrCmderr clrDone : Bit) : HostEffect s (s.clearFlags clrCmderr clrDone)
  | word (w : Word) : HostEffect s (s.setRdata w)

/-- Every request word has one of these effects. -/
theorem exec_decodeBus (w : RequestWord) (s : State) : ∃ t, exec (decodeBus w) s = .next t ∧ HostEffect s t := by
  simp only [decodeBus]
  split
  · simp only [decodeWrite]
    split
    · simp only [decodeCommand]
      split
      · exact ⟨_, rfl, .same⟩
      split
      · by_cases h : s.phase = .idle
        · exact ⟨s.acceptRead, by simp [exec, execRead, h], .read h⟩
        · exact ⟨s.reject, by simp [exec, execRead, h], .reject⟩
      split
      · by_cases h : s.phase = .idle
        · exact ⟨s.acceptMeasure, by simp [exec, execMeasure, h], .measure h⟩
        · exact ⟨s.reject, by simp [exec, execMeasure, h], .reject⟩
      split
      · exact ⟨_, rfl, .reject⟩
      · exact ⟨_, rfl, .reject⟩
    split
    · exact ⟨_, rfl, .config _ _ _ _⟩
    split
    · exact ⟨_, rfl, .status _ _⟩
    split
    · exact ⟨_, rfl, .same⟩
    split
    · exact ⟨_, rfl, .same⟩
    split
    · exact ⟨_, rfl, .same⟩
    split
    · exact ⟨_, rfl, .same⟩
    · exact ⟨_, rfl, .same⟩
  · simp only [decodeRead]
    split
    · exact ⟨_, rfl, .word _⟩
    split
    · exact ⟨_, rfl, .word _⟩
    split
    · exact ⟨_, rfl, .word _⟩
    split
    · exact ⟨_, rfl, .word _⟩
    split
    · exact ⟨_, rfl, .word _⟩
    split
    · exact ⟨_, rfl, .word _⟩
    split
    · exact ⟨_, rfl, .word _⟩
    · exact ⟨_, rfl, .word _⟩

section events
variable {s : State} {es : List Event}

/-- No event waits: time passes, and a tick comes with a free sample. -/
theorem step_nil (h : s.inputs = []) :
    step s = .next (tick params (Config.freeSample s.draws) s.countDraw) := by
  simp only [step, fetch, h, decode]
  exact exec_decodeTick _ s.countDraw

theorem step_tick {smp : Bit} (h : s.inputs = .tick smp :: es) :
    step s = .next (tick params smp (s.setInputs es)) := by
  simp only [step, fetch, h, decode]
  exact exec_decodeTick _ (s.setInputs es)

theorem step_access {a : Access} (h : s.inputs = .access a :: es) (hw : a.width = 32) :
    step s = exec (decodeBus a.word) (s.setInputs es) := by
  simp [step, fetch, h, hw, decode, params]

theorem step_narrow {a : Access} (h : s.inputs = .access a :: es) (hw : a.width ≠ 32) :
    step s = .refused (.accessWidth a.width) := by
  simp [step, fetch, h, hw, params]

theorem step_reset (h : s.inputs = .reset :: es) : step s = .next (s.setInputs es).resetBlock := by
  simp [step, fetch, h]

theorem step_clock {smp : Bit} (h : s.inputs = .clock smp :: es) :
    step s = .next ((s.setInputs es).clockEdge params smp) := by
  simp [step, fetch, h]

end events

/-- A clock edge leaves all but TICKGEN and the events alone. -/
theorem clockEdge_cases (p : Params) (smp : Bit) (s : State) :
    s.clockEdge p smp = s.setTickgen (s.tickgen + 1) ∨
    s.clockEdge p smp = (s.setTickgen 0).setInputs (.tick smp :: s.inputs) := by
  unfold State.clockEdge
  split
  · exact .inl rfl
  · exact .inr rfl

/-- The inversion of `step`: everything that can lead to a next state. -/
theorem step_cases {s t : State} (h : step s = .next t) :
    (s.inputs = [] ∧ t = tick params (Config.freeSample s.draws) s.countDraw) ∨
    (∃ smp es, s.inputs = .tick smp :: es ∧ t = tick params smp (s.setInputs es)) ∨
    (∃ a es, s.inputs = .access a :: es ∧ a.width = 32 ∧ exec (decodeBus a.word) (s.setInputs es) = .next t ∧
      HostEffect (s.setInputs es) t) ∨
    (∃ es, s.inputs = .reset :: es ∧ t = (s.setInputs es).resetBlock) ∨
    (∃ smp es, s.inputs = .clock smp :: es ∧ t = (s.setInputs es).clockEdge params smp) := by
  match hi : s.inputs with
  | [] =>
    rw [step_nil hi] at h
    exact .inl ⟨rfl, by injection h with h; exact h.symm⟩
  | .tick smp :: es =>
    rw [step_tick hi] at h
    exact .inr (.inl ⟨smp, es, rfl, by injection h with h; exact h.symm⟩)
  | .access a :: es =>
    by_cases hw : a.width = 32
    · rw [step_access hi hw] at h
      obtain ⟨u, hu, he⟩ := exec_decodeBus a.word (s.setInputs es)
      obtain rfl : u = t := by rw [hu] at h; injection h
      exact .inr (.inr (.inl ⟨a, es, rfl, hw, h, he⟩))
    · rw [step_narrow hi hw] at h
      cases h
  | .reset :: es =>
    rw [step_reset hi] at h
    exact .inr (.inr (.inr (.inl ⟨es, rfl, by injection h with h; exact h.symm⟩)))
  | .clock smp :: es =>
    rw [step_clock hi] at h
    exact .inr (.inr (.inr (.inr ⟨smp, es, rfl, by injection h with h; exact h.symm⟩)))

end Sys2Proof.Machine
end

