-- ==== Sys2Proof/Laws/Access.lean ====
section
/-! SUPPORT. The request word of a host access (30_encoding.md rule R70): its fields, and the instruction it
decodes to. -/

namespace Sys2Proof.Machine

section
variable (a : Access)

@[simp] theorem Access.word_we : a.word.extractLsb' 37 1 = a.we := by
  simp only [Access.word]
  rw [extract_append_high _ _ _ (by omega), extract_append_high _ _ _ (by omega)]
  exact extract_all a.we

@[simp] theorem Access.word_sel : a.word.extractLsb' 34 3 = a.off.extractLsb' 2 3 := by
  simp only [Access.word]
  rw [extract_append_high _ _ _ (by omega), extract_append_low _ _ _ (by omega)]

@[simp] theorem Access.word_lo : a.word.extractLsb' 32 2 = a.off.extractLsb' 0 2 := by
  simp only [Access.word]
  rw [extract_append_high _ _ _ (by omega), extract_append_low _ _ _ (by omega)]

@[simp] theorem Access.word_data : a.word.extractLsb' 0 32 = a.wdata := by
  simp only [Access.word]
  rw [extract_append_low _ _ _ (by omega)]
  exact extract_all a.wdata

end

/-- The instruction of a host write (45_host_interface.md rule R170). -/
theorem decodeBus_hostWrite (off : Offset) (v : Word) :
    decodeBus (hostWrite off v).word = decodeWrite (off.extractLsb' 2 3) (off.extractLsb' 0 2) v := by
  simp [decodeBus]; simp [hostWrite]

/-- The instruction of a host read (45_host_interface.md rule R179). -/
theorem decodeBus_hostRead (off : Offset) :
    decodeBus (hostRead off).word = decodeRead (off.extractLsb' 2 3) (off.extractLsb' 0 2) 0#32 := by
  simp [decodeBus]; simp [hostRead]

/-- The step of a host write that waits. -/
theorem step_hostWrite {s : State} {es : List Event} {off : Offset} {v : Word}
    (h : s.inputs = .access (hostWrite off v) :: es) :
    step s = exec (decodeWrite (off.extractLsb' 2 3) (off.extractLsb' 0 2) v) (s.setInputs es) := by
  rw [step_access h rfl, decodeBus_hostWrite]

/-- The step of a host read that waits. -/
theorem step_hostRead {s : State} {es : List Event} {off : Offset} (h : s.inputs = .access (hostRead off) :: es) :
    step s = exec (decodeRead (off.extractLsb' 2 3) (off.extractLsb' 0 2) 0#32) (s.setInputs es) := by
  rw [step_access h rfl, decodeBus_hostRead]

/-- Every read returns the word of the register it selects (45_host_interface.md rule R179). -/
theorem exec_decodeRead (sel : BitVec 3) (lo : BitVec 2) (v : Word) (s : State) :
    exec (decodeRead sel lo v) s = .next (s.setRdata (registerWord s sel)) := by
  simp only [decodeRead, registerWord]
  repeat' split
  all_goals rfl

end Sys2Proof.Machine
end

