-- ==== Sys2Proof/Machine/Observe.lean ====
section
/-! DEFINITION. The observation of a command's run on the machine (70_reset_and_hazards.md rule R248), with any events
between its ticks: from the CMD write to the run's end. -/

namespace Sys2Proof.Machine

/-- "The observation of a run is the state at its end together with the trace of `line_oe` and `line_out` per tick"
(70_reset_and_hazards.md rule R248). -/
structure Observation where
  final : State
  line : List (Bit × Bit)
  deriving DecidableEq, Repr

/-- The observation whose first tick leaves the line outputs of `t`. -/
def Observation.afterTick (t : State) (o : Observation) : Observation :=
  { o with line := (lineOe t, lineOut t) :: o.line }

/-- A CMD write of `v` starts a command in `s` (45_host_interface.md rule R171): READ or MEASURE in IDLE. -/
def startsCommand (v : Word) (s : State) : Bool :=
  s.phase == .idle && (v.extractLsb' 0 3 == 1#3 || v.extractLsb' 0 3 == 2#3)

/-- At most `n` steps of the machine from an accepted command on: the run ends at the first tick after which
PHASE = IDLE and DONE = 1. A run cut by a reset "has no end in this sense", and so has one that the steps given do not
complete. -/
def observeSteps : Nat → State → Option Observation
  | 0, _ => none
  | n + 1, s =>
    match step s with
    | .next t =>
      match s.inputs with
      | [] => if runEnded t then some ⟨t, [(lineOe t, lineOut t)]⟩ else (observeSteps n t).map (.afterTick t)
      | .tick _ :: _ =>
        if runEnded t then some ⟨t, [(lineOe t, lineOut t)]⟩ else (observeSteps n t).map (.afterTick t)
      | .access _ :: _ => observeSteps n t
      | .clock _ :: _ => observeSteps n t
      | .reset :: _ => none
    | .fault _ => none
    | .refused _ => none

/-- The run of a CMD write of `v`: "For NOP, and for a rejected command, the run ends at the write itself, with no change
to DONE"; else it ends where `observeSteps` says. The events that come after the write are those of `s`. -/
def observeCommand (n : Nat) (v : Word) (s : State) : Option Observation :=
  match step (s.setInputs (.access (hostWrite 0x00#5 v) :: s.inputs)) with
  | .next t => if startsCommand v s then observeSteps n t else some ⟨t, []⟩
  | .fault _ => none
  | .refused _ => none

end Sys2Proof.Machine
end

