-- ==== Sys2Proof/Laws/Observe.lean ====
section
/-! SUPPORT. The observation of a run (70_reset_and_hazards.md rule R248): where a run that starts no command ends, that
an observed run of a command ends IDLE with DONE = 1, and that with ticks alone the observation is `observeRun`'s. -/

namespace Sys2Proof.Machine

/-- The step of a CMD write is that of its CODE's instruction. -/
theorem step_cmdWrite (v : Word) (s : State) :
    step (s.setInputs (.access (hostWrite 0x00#5 v) :: s.inputs)) = exec (decodeCommand 0#2 v) s := by
  rw [step_hostWrite (off := 0x00#5) (v := v) (es := s.inputs) rfl]
  rfl

/-- The run of a NOP ends at the write, with nothing changed. -/
theorem observeCommand_nop (n : Nat) {v : Word} (s : State) (h : v.extractLsb' 0 3 = 0#3) :
    observeCommand n v s = some ⟨s, []⟩ := by
  simp [observeCommand, step_cmdWrite, startsCommand, decodeCommand, h, exec, execNop]

/-- The run of a rejected command ends at the write, with CMDERR set and DONE as it was. -/
theorem observeCommand_rejected (n : Nat) {v : Word} {s : State} (hs : startsCommand v s = false)
    (hv : v.extractLsb' 0 3 ≠ 0#3) : observeCommand n v s = some ⟨s.reject, []⟩ := by
  have he : exec (decodeCommand 0#2 v) s = .next s.reject := by
    simp only [decodeCommand, if_neg hv]
    split
    · have : s.phase ≠ .idle := by simp_all [startsCommand]
      simp [exec, execRead, this]
    split
    · have : s.phase ≠ .idle := by simp_all [startsCommand]
      simp [exec, execMeasure, this]
    split <;> rfl
  simp [observeCommand, step_cmdWrite, he, hs]

/-- An observed run of an accepted command ends IDLE with DONE = 1. -/
theorem observeSteps_ended {n : Nat} {s : State} {o : Observation} (h : observeSteps n s = some o) :
    runEnded o.final = true := by
  induction n generalizing s o with
  | zero => simp [observeSteps] at h
  | succ n ih =>
    have hm : ∀ t : State,
        (if runEnded t then some (Observation.mk t [(lineOe t, lineOut t)])
          else (observeSteps n t).map (.afterTick t)) = some o → runEnded o.final = true := by
      intro t ht
      split at ht
      · next he => obtain rfl := Option.some.inj ht; exact he
      · obtain ⟨o', ho, rfl⟩ := Option.map_eq_some_iff.mp ht
        exact ih (o := o') ho
    simp only [observeSteps] at h
    split at h
    · split at h
      · exact hm _ h
      · exact hm _ h
      · exact ih h
      · exact ih h
      · cases h
    · cases h
    · cases h

/-- One more tick, of which the run is observed. -/
theorem observeSteps_tick {n : Nat} {smp : Bit} {s : State} {es : List Event} (h : s.inputs = .tick smp :: es) :
    observeSteps (n + 1) s =
      let t := tick params smp (s.setInputs es)
      if runEnded t then some ⟨t, [(lineOe t, lineOut t)]⟩ else (observeSteps n t).map (.afterTick t) := by
  simp [observeSteps, step_tick h, h]

section events
variable (p : Params) (smp : Bit) (s : State) (es : List Event)

theorem frameEnd_setInputs : (s.setInputs es).frameEnd = s.frameEnd.setInputs es := by
  cases h : frameCheck s.shift
  · rw [frameEnd_mismatch h]; exact frameEnd_mismatch (s := s.setInputs es) h
  · rw [frameEnd_valid h]; exact frameEnd_valid (s := s.setInputs es) h

/-- A wait's evaluation neither reads nor changes the events. -/
theorem evalWait_setInputs {k : WaitPhase → State → State} (hk : ∀ q t, k q (t.setInputs es) = (k q t).setInputs es)
    (q : WaitPhase) : evalWait p smp k q (s.setInputs es) = (evalWait p smp k q s).setInputs es := by
  have hl : waitLevel (s.setInputs es) q = waitLevel s q := by cases q <;> rfl
  have hb : waitBound p (s.setInputs es) q = waitBound p s q := by cases q <;> rfl
  simp only [evalWait, hl, hb, State.setInputs_cnt]
  split
  · rfl
  · rfl
  · next c _ =>
    cases q with
    | ackLow => exact hk _ (s.setCount c)
    | ackHigh => exact hk _ (s.setCount c)
    | bitMark => exact hk _ (s.setCount c)
    | bitHigh =>
      change ite _ _ _ = State.setInputs (ite _ _ _) es
      rw [apply_ite (fun t : State => t.setInputs es)]
      exact if_congr Iff.rfl (frameEnd_setInputs ((s.setCount c).storeBit (bitOf s.thrS c)) es)
        (hk _ ((s.setCount c).storeBit (bitOf s.thrS c)))
    | measure => rfl

theorem waitTick_setInputs (q : WaitPhase) :
    waitTick p smp q (s.setInputs es) = (waitTick p smp q s).setInputs es :=
  evalWait_setInputs p smp s es (fun q t => evalWait_setInputs p smp (t.enter q.phase) es (fun _ _ => rfl) q) q

theorem driveTick_setInputs (d : Nat) (q : Phase) :
    driveTick d q (s.setInputs es) = (driveTick d q s).setInputs es := by
  by_cases h : (s.cnt + 1#17).toNat = d
  · rw [driveTick_enter h]; exact driveTick_enter (s := s.setInputs es) h
  · rw [driveTick_count h]; exact driveTick_count (s := s.setInputs es) h

/-- A tick neither reads nor changes the events. -/
theorem tick_setInputs : tick p smp (s.setInputs es) = (tick p smp s).setInputs es := by
  simp only [tick, State.setInputs_phase]
  split
  · rfl
  · exact driveTick_setInputs s es _ _
  · exact driveTick_setInputs s es _ _
  all_goals exact waitTick_setInputs p smp s es _

end events

/-- With ticks alone, the machine's observation is that of `observeRun`: the same trace, and the same state at the end
but for the ticks that were not needed. -/
theorem observeSteps_eq_observeRun (l : List Bit) (s : State) :
    (observeSteps l.length (s.setInputs (l.map .tick))).map (fun o => (o.final.setInputs [], o.line)) =
      observeRun params l (s.setInputs []) := by
  induction l generalizing s with
  | nil => rfl
  | cons smp rest ih =>
    have hi : (s.setInputs ((smp :: rest).map .tick)).inputs = .tick smp :: rest.map .tick := rfl
    have ht : tick params smp ((s.setInputs ((smp :: rest).map .tick)).setInputs (rest.map .tick)) =
        (tick params smp s).setInputs (rest.map .tick) := tick_setInputs params smp s _
    have he : tick params smp (s.setInputs []) = (tick params smp s).setInputs [] := tick_setInputs params smp s _
    simp only [List.length_cons]
    rw [observeSteps_tick hi, ht]
    simp only [observeRun, he]
    by_cases hr : runEnded (tick params smp s) = true
    · have h1 : ∀ es, runEnded ((tick params smp s).setInputs es) = true := fun _ => hr
      simp only [h1, if_true]; rfl
    · have h1 : ∀ es, runEnded ((tick params smp s).setInputs es) ≠ true := fun _ => hr
      simp only [h1]
      rw [← ih (tick params smp s)]
      cases observeSteps rest.length ((tick params smp s).setInputs (rest.map .tick)) <;> rfl

end Sys2Proof.Machine
end

