-- ==== Sys2Proof/Laws/PerInstr.lean ====
section
/-! SUPPORT. Statements for all instructions, one lemma for each constructor. RowMatch: the encoding of an
instruction lies in its row of spec/opcode_table.json: its word, under the row's mask, is the row's match value. -/

namespace Sys2Proof.Laws.RowMatch

def Statement (i : Instr) : Prop := (encode i).number &&& i.row.mask = i.row.value

theorem nop (lo : BitVec 2) (ign : BitVec 29) : Statement (.nop lo ign) :=
  toNat_mask (requestWord_mask_code _ _ _ _ _)

theorem read (lo : BitVec 2) (ign : BitVec 29) : Statement (.read lo ign) :=
  toNat_mask (requestWord_mask_code _ _ _ _ _)

theorem measure (lo : BitVec 2) (ign : BitVec 29) : Statement (.measure lo ign) :=
  toNat_mask (requestWord_mask_code _ _ _ _ _)

theorem cmdRsv3 (lo : BitVec 2) (ign : BitVec 29) : Statement (.cmdRsv3 lo ign) :=
  toNat_mask (requestWord_mask_code _ _ _ _ _)

theorem cmdRsv47 (lo : BitVec 2) (ign : BitVec 29) (code : BitVec 2) : Statement (.cmdRsv47 lo ign code) :=
  toNat_mask (requestWord_mask_code2 _ _ _ _ _ _)

theorem wrConfig (lo : BitVec 2) (mtimeout : BitVec 16) (ign : BitVec 6) (mlevel ie : Bit) (thresh : Byte) :
    Statement (.wrConfig lo mtimeout ign mlevel ie thresh) :=
  toNat_mask (requestWord_mask _ _ _ _)

theorem wrStatus (lo : BitVec 2) (ign : BitVec 29) (clrCmderr clrDone ign0 : Bit) :
    Statement (.wrStatus lo ign clrCmderr clrDone ign0) :=
  toNat_mask (requestWord_mask _ _ _ _)

theorem wrCount (lo : BitVec 2) (ign : Word) : Statement (.wrCount lo ign) := toNat_mask (requestWord_mask _ _ _ _)

theorem wrData0 (lo : BitVec 2) (ign : Word) : Statement (.wrData0 lo ign) := toNat_mask (requestWord_mask _ _ _ _)

theorem wrData1 (lo : BitVec 2) (ign : Word) : Statement (.wrData1 lo ign) := toNat_mask (requestWord_mask _ _ _ _)

theorem wrRaw0 (lo : BitVec 2) (ign : Word) : Statement (.wrRaw0 lo ign) := toNat_mask (requestWord_mask _ _ _ _)

theorem wrRaw1 (lo : BitVec 2) (ign : Word) : Statement (.wrRaw1 lo ign) := toNat_mask (requestWord_mask _ _ _ _)

theorem rdCmd (lo : BitVec 2) (ign : Word) : Statement (.rdCmd lo ign) := toNat_mask (requestWord_mask _ _ _ _)

theorem rdConfig (lo : BitVec 2) (ign : Word) : Statement (.rdConfig lo ign) := toNat_mask (requestWord_mask _ _ _ _)

theorem rdStatus (lo : BitVec 2) (ign : Word) : Statement (.rdStatus lo ign) := toNat_mask (requestWord_mask _ _ _ _)

theorem rdCount (lo : BitVec 2) (ign : Word) : Statement (.rdCount lo ign) := toNat_mask (requestWord_mask _ _ _ _)

theorem rdData0 (lo : BitVec 2) (ign : Word) : Statement (.rdData0 lo ign) := toNat_mask (requestWord_mask _ _ _ _)

theorem rdData1 (lo : BitVec 2) (ign : Word) : Statement (.rdData1 lo ign) := toNat_mask (requestWord_mask _ _ _ _)

theorem rdRaw0 (lo : BitVec 2) (ign : Word) : Statement (.rdRaw0 lo ign) := toNat_mask (requestWord_mask _ _ _ _)

theorem rdRaw1 (lo : BitVec 2) (ign : Word) : Statement (.rdRaw1 lo ign) := toNat_mask (requestWord_mask _ _ _ _)

theorem tickIdle (smp : Bit) : Statement (.tickIdle smp) := code_mask _

theorem tickStartLow (smp : Bit) : Statement (.tickStartLow smp) := code_mask _

theorem tickStartHigh (smp : Bit) : Statement (.tickStartHigh smp) := code_mask _

theorem tickAckLow (smp : Bit) : Statement (.tickAckLow smp) := code_mask _

theorem tickAckHigh (smp : Bit) : Statement (.tickAckHigh smp) := code_mask _

theorem tickBitMark (smp : Bit) : Statement (.tickBitMark smp) := code_mask _

theorem tickBitHigh (smp : Bit) : Statement (.tickBitHigh smp) := code_mask _

theorem tickMeasure (smp : Bit) : Statement (.tickMeasure smp) := code_mask _

end Sys2Proof.Laws.RowMatch
end

