-- ==== Sys2Proof/Laws/Tick.lean ====
section
/-! SUPPORT. The inversion of a tick: everything one tick can make of the state, in either comparison order and for
any count (45_host_interface.md rule R187). Invariants and whole-machine rules split on it instead of unfolding
`tick`. -/

namespace Sys2Proof.Machine

/-- The effect of one tick. The counts `c` are left open; Laws/PulseTimer.lean gives them. -/
inductive TickEffect (p : Params) (smp : Bit) (s : State) : State → Prop where
  | idle (h : s.phase = .idle) : TickEffect p smp s s
  | count (h : s.phase ≠ .idle) (c : TickCount) : TickEffect p smp s (s.setCnt c)
  | startHigh (h : s.phase = .startLow) : TickEffect p smp s (s.enter .startHigh)
  | release (h : s.phase = .startHigh) : TickEffect p smp s (s.enter .ackLow)
  | timeout (q : WaitPhase) (h : s.phase = q.phase) (hs : smp = waitLevel s q) (c : TickCount) :
      TickEffect p smp s ((s.setCount c).failWait q)
  | ackHigh (h : s.phase = .ackLow) (hs : smp = 1#1) :
      TickEffect p smp s (((s.setCount s.cnt).enter .ackHigh).setCnt 1#17)
  | bitMark (h : s.phase = .ackHigh) (hs : smp = 0#1) :
      TickEffect p smp s (((s.setCount s.cnt).enter .bitMark).setCnt 1#17)
  | bitHigh (h : s.phase = .bitMark) (hs : smp = 1#1) :
      TickEffect p smp s (((s.setCount s.cnt).enter .bitHigh).setCnt 1#17)
  | nextBit (h : s.phase = .bitHigh) (hs : smp = 0#1) (hn : (s.bitidx + 1#6).toNat ≠ p.nbits) :
      TickEffect p smp s ((((s.setCount s.cnt).storeBit (bitOf s.thrS s.cnt)).enter .bitMark).setCnt 1#17)
  | frameEnd (h : s.phase = .bitHigh) (hs : smp = 0#1) (hn : (s.bitidx + 1#6).toNat = p.nbits) :
      TickEffect p smp s ((s.setCount s.cnt).storeBit (bitOf s.thrS s.cnt)).frameEnd
  | measured (h : s.phase = .measure) (hs : smp ≠ s.mlvlS) : TickEffect p smp s (s.setCount s.cnt).completeMeasure

/-- A wait tick on a sample at the expected level counts or times out, in either order. -/
theorem waitTick_self (p : Params) {smp : Bit} {q : WaitPhase} {s : State} (hs : smp = waitLevel s q) :
    (∃ c, waitTick p smp q s = s.setCnt c) ∨ ∃ c, waitTick p smp q s = (s.setCount c).failWait q := by
  match h : ptStep p.order smp (waitLevel s q) (waitBound p s q) s.cnt with
  | .cont c => exact .inl ⟨c, evalWait_cont _ h⟩
  | .timeout c => exact .inr ⟨c, evalWait_timeout _ h⟩
  | .finished c => rw [hs] at h; exact absurd h (ptStep_self_ne_finished _ _ _ _ _)

theorem eq_one_of_ne_zero {b : Bit} (h : b ≠ 0#1) : b = 1#1 := by revert b; decide

theorem eq_zero_of_ne_one {b : Bit} (h : b ≠ 1#1) : b = 0#1 := by revert b; decide

/-- A wait tick at the expected level, as an effect of the tick. -/
theorem tickEffect_self {p : Params} {smp : Bit} {q : WaitPhase} {s : State} (h : s.phase = q.phase)
    (hs : smp = waitLevel s q) : TickEffect p smp s (waitTick p smp q s) := by
  rcases waitTick_self p hs with ⟨c, e⟩ | ⟨c, e⟩ <;> rw [e]
  · exact .count (by rw [h]; cases q <;> decide) c
  · exact .timeout q h hs c

/-- Every tick has one of these effects, where the chained waits' bounds are at least 1. -/
theorem tick_effect {p : Params} (smp : Bit) (s : State) (h1 : 1 ≤ p.toAckHigh) (h2 : 1 ≤ p.toMark)
    (h3 : 1 ≤ p.toHigh) : TickEffect p smp s (tick p smp s) := by
  match h : s.phase with
  | .idle => rw [tick_idle h]; exact .idle h
  | .startLow =>
    simp only [tick, h]
    by_cases hc : (s.cnt + 1#17).toNat = p.tStartLow
    · rw [driveTick_enter hc]; exact .startHigh h
    · rw [driveTick_count hc]; exact .count (by simp [h]) _
  | .startHigh =>
    simp only [tick, h]
    by_cases hc : (s.cnt + 1#17).toNat = p.tStartHigh
    · rw [driveTick_enter hc]; exact .release h
    · rw [driveTick_count hc]; exact .count (by simp [h]) _
  | .ackLow =>
    simp only [tick, h]
    by_cases hs : smp = 0#1
    · exact tickEffect_self (q := .ackLow) h hs
    · rw [eq_one_of_ne_zero hs, waitTick_ackLow_done h1]; exact .ackHigh h rfl
  | .ackHigh =>
    simp only [tick, h]
    by_cases hs : smp = 1#1
    · exact tickEffect_self (q := .ackHigh) h hs
    · rw [eq_zero_of_ne_one hs, waitTick_ackHigh_done h2]; exact .bitMark h rfl
  | .bitMark =>
    simp only [tick, h]
    by_cases hs : smp = 0#1
    · exact tickEffect_self (q := .bitMark) h hs
    · rw [eq_one_of_ne_zero hs, waitTick_bitMark_done h3]; exact .bitHigh h rfl
  | .bitHigh =>
    simp only [tick, h]
    by_cases hs : smp = 1#1
    · exact tickEffect_self (q := .bitHigh) h hs
    · rw [eq_zero_of_ne_one hs]
      by_cases hn : (s.bitidx + 1#6).toNat = p.nbits
      · rw [waitTick_bitHigh_last hn]; exact .frameEnd h rfl hn
      · rw [waitTick_bitHigh_done h2 hn]; exact .nextBit h rfl hn
  | .measure =>
    simp only [tick, h]
    by_cases hs : smp = s.mlvlS
    · exact tickEffect_self (q := .measure) h hs
    · rw [waitTick_measure_done hs]; exact .measured h hs

end Sys2Proof.Machine
end

