-- ==== Sys2Proof/Tests/Slice0.lean ====
section
/-! SUPPORT. Tests. Expected values come from the spec: the encodings of 30_encoding.md and spec/opcode_table.json, the
worked examples of the rules, and the vectors of 95_test_vectors.md, named at each test. A theorem whose name begins
with `witness_` shows a concrete state and operands that meet a statement's hypotheses together. -/

open Sys2Proof Sys2Proof.Machine Sys2Proof.Safety

namespace Sys2Proof.Tests

/-- The next state of an answer. -/
def nextOf : Answer → Option State
  | .next s => some s
  | .fault _ => none
  | .refused _ => none

/-- The next state of an instruction. -/
def after (i : Instr) (s : State) : Option State := nextOf (exec i s)

/-- The reset state in phase `q` with CNT = `c`. -/
def inPhase (q : Phase) (c : TickCount) : State := { State.reset with phase := q, cnt := c }

/-- The reset state with the events `es` waiting. -/
def waiting (es : List Event) : State := { State.reset with inputs := es }

/-- A state after the VALID READ of program P1 (STATUS 0x00280012), with DONE still set. -/
def afterP1 : State :=
  { State.reset with
    bitidx := 40#6, shift := 0x3E0519035F#40, data := 0x3E0519035F#40, count := 70#17, done := 1#1, result := .valid }

/-- In BIT_HIGH at bit 39 of program P1's frame, bit 39 not yet written. -/
def atLastBit (c : TickCount) : State :=
  { State.reset with phase := .bitHigh, cnt := c, bitidx := 39#6, shift := 0x3E0519035E#40 }

/-- A READ in BIT_HIGH at bit 5, with the first five bits of program P1's frame. -/
def atBit5 (c : TickCount) : State :=
  { State.reset with phase := .bitHigh, cnt := c, bitidx := 5#6, shift := 0x3800000000#40 }

/-! WellFormed: an ill-formed term for each check, which the check refuses (30_encoding.md: "`wdata` 0 for a read"). -/

theorem test_wellFormed_rdCmd_refuses_data : (Instr.rdCmd 0#2 1#32).wellFormed = false := by decide
theorem test_wellFormed_rdConfig_refuses_data : (Instr.rdConfig 0#2 1#32).wellFormed = false := by decide
theorem test_wellFormed_rdStatus_refuses_data : (Instr.rdStatus 0#2 0x80000000#32).wellFormed = false := by decide
theorem test_wellFormed_rdCount_refuses_data : (Instr.rdCount 0#2 5#32).wellFormed = false := by decide
theorem test_wellFormed_rdData0_refuses_data : (Instr.rdData0 1#2 1#32).wellFormed = false := by decide
theorem test_wellFormed_rdData1_refuses_data : (Instr.rdData1 0#2 1#32).wellFormed = false := by decide
theorem test_wellFormed_rdRaw0_refuses_data : (Instr.rdRaw0 0#2 1#32).wellFormed = false := by decide
theorem test_wellFormed_rdRaw1_refuses_data : (Instr.rdRaw1 0#2 1#32).wellFormed = false := by decide

/-- The well-formed terms beside them. -/
theorem test_wellFormed_accepts_reads :
    [Instr.rdCmd 3#2 0#32, .rdConfig 0#2 0#32, .rdStatus 0#2 0#32, .rdCount 0#2 0#32, .rdData0 1#2 0#32, .rdData1 0#2 0#32,
      .rdRaw0 0#2 0#32, .rdRaw1 0#2 0#32].all Instr.wellFormed = true := by decide

/-! Decoding: a word of every instruction, written bit by bit from 30_encoding.md rules R70 to R73, R80 and R82. The
request word is `we`, `off[4:2]`, `off[1:0]`, then the data word. -/

theorem test_decode_nop : decode (.bus 0b1_000_01_00000000000000000000000000001_000#38) = .nop 1#2 1#29 := by decide
theorem test_decode_read :
    decode (.bus 0b1_000_00_11111111111111111111111111111_001#38) = .read 0#2 0x1FFFFFFF#29 := by decide
theorem test_decode_measure : decode (.bus 0b1_000_10_00000000000000000000000000000_010#38) = .measure 2#2 0#29 := by
  decide
theorem test_decode_cmdRsv3 : decode (.bus 0b1_000_00_10000000000000000000000000000_011#38) =
    .cmdRsv3 0#2 0x10000000#29 := by decide
theorem test_decode_cmdRsv47 :
    decode (.bus 0b1_000_00_00000000000000000000000000000_100#38) = .cmdRsv47 0#2 0#29 0#2 ∧
    decode (.bus 0b1_000_00_00000000000000000000000000000_101#38) = .cmdRsv47 0#2 0#29 1#2 ∧
    decode (.bus 0b1_000_00_00000000000000000000000000000_110#38) = .cmdRsv47 0#2 0#29 2#2 ∧
    decode (.bus 0b1_000_00_00000000000000000000000000001_111#38) = .cmdRsv47 0#2 1#29 3#2 := by decide
theorem test_decode_wrConfig : decode (.bus 0b1_001_00_0000000001100100_000001_1_0_00011110#38) =
    .wrConfig 0#2 100#16 1#6 1#1 0#1 30#8 := by decide
theorem test_decode_wrStatus : decode (.bus 0b1_010_00_00000000000000000000000000001_1_0_1#38) =
    .wrStatus 0#2 1#29 1#1 0#1 1#1 := by decide
theorem test_decode_wrCount : decode (.bus 0b1_011_00_00000000000000000000000000000101#38) = .wrCount 0#2 5#32 := by
  decide
theorem test_decode_wrData0 : decode (.bus 0b1_100_00_00000000000000000000000000000101#38) = .wrData0 0#2 5#32 := by
  decide
theorem test_decode_wrData1 : decode (.bus 0b1_101_11_00000000000000000000000000000101#38) = .wrData1 3#2 5#32 := by
  decide
theorem test_decode_wrRaw0 : decode (.bus 0b1_110_00_00000000000000000000000000000101#38) = .wrRaw0 0#2 5#32 := by
  decide
theorem test_decode_wrRaw1 : decode (.bus 0b1_111_00_00000000000000000000000000000101#38) = .wrRaw1 0#2 5#32 := by
  decide
theorem test_decode_rdCmd : decode (.bus 0b0_000_00_00000000000000000000000000000000#38) = .rdCmd 0#2 0#32 := by decide
theorem test_decode_rdConfig : decode (.bus 0b0_001_00_00000000000000000000000000000000#38) = .rdConfig 0#2 0#32 := by
  decide
theorem test_decode_rdStatus : decode (.bus 0b0_010_00_00000000000000000000000000000000#38) = .rdStatus 0#2 0#32 := by
  decide
theorem test_decode_rdCount : decode (.bus 0b0_011_00_00000000000000000000000000000000#38) = .rdCount 0#2 0#32 := by
  decide
theorem test_decode_rdData0 : decode (.bus 0b0_100_01_00000000000000000000000000000000#38) = .rdData0 1#2 0#32 := by
  decide
theorem test_decode_rdData1 : decode (.bus 0b0_101_00_00000000000000000000000000000000#38) = .rdData1 0#2 0#32 := by
  decide
theorem test_decode_rdRaw0 : decode (.bus 0b0_110_00_00000000000000000000000000000000#38) = .rdRaw0 0#2 0#32 := by
  decide
theorem test_decode_rdRaw1 : decode (.bus 0b0_111_00_00000000000000000000000000000000#38) = .rdRaw1 0#2 0#32 := by
  decide
theorem test_decode_tickIdle : decode (.tick 0b000#3 1#1) = .tickIdle 1#1 := by decide
theorem test_decode_tickStartLow : decode (.tick 0b001#3 1#1) = .tickStartLow 1#1 := by decide
theorem test_decode_tickStartHigh : decode (.tick 0b010#3 1#1) = .tickStartHigh 1#1 := by decide
theorem test_decode_tickAckLow : decode (.tick 0b011#3 1#1) = .tickAckLow 1#1 := by decide
theorem test_decode_tickAckHigh : decode (.tick 0b100#3 1#1) = .tickAckHigh 1#1 := by decide
theorem test_decode_tickBitMark : decode (.tick 0b101#3 1#1) = .tickBitMark 1#1 := by decide
theorem test_decode_tickBitHigh : decode (.tick 0b110#3 1#1) = .tickBitHigh 1#1 := by decide
theorem test_decode_tickMeasure : decode (.tick 0b111#3 1#1) = .tickMeasure 1#1 := by decide

/-- The "match" words of spec/opcode_table.json's host writes. -/
theorem test_tableWords_writes :
    [0x2000000000, 0x2000000001, 0x2000000002, 0x2000000003, 0x2000000004, 0x2400000000, 0x2800000000, 0x2C00000000,
      0x3000000000, 0x3400000000, 0x3800000000, 0x3C00000000].map (decodeTableWord 40) =
    [some (.nop 0#2 0#29), some (.read 0#2 0#29), some (.measure 0#2 0#29), some (.cmdRsv3 0#2 0#29),
      some (.cmdRsv47 0#2 0#29 0#2), some (.wrConfig 0#2 0#16 0#6 0#1 0#1 0#8), some (.wrStatus 0#2 0#29 0#1 0#1 0#1),
      some (.wrCount 0#2 0#32), some (.wrData0 0#2 0#32), some (.wrData1 0#2 0#32), some (.wrRaw0 0#2 0#32),
      some (.wrRaw1 0#2 0#32)] := by decide

/-- The "match" words of spec/opcode_table.json's host reads and tick rules. -/
theorem test_tableWords_reads_and_ticks :
    [0x0000000000, 0x0400000000, 0x0800000000, 0x0C00000000, 0x1000000000, 0x1400000000, 0x1800000000,
      0x1C00000000].map (decodeTableWord 40) =
    [some (.rdCmd 0#2 0#32), some (.rdConfig 0#2 0#32), some (.rdStatus 0#2 0#32), some (.rdCount 0#2 0#32),
      some (.rdData0 0#2 0#32), some (.rdData1 0#2 0#32), some (.rdRaw0 0#2 0#32), some (.rdRaw1 0#2 0#32)] ∧
    [0, 1, 2, 3, 4, 5, 6, 7].map (decodeTableWord 8) =
    [some (.tickIdle 0#1), some (.tickStartLow 0#1), some (.tickStartHigh 0#1), some (.tickAckLow 0#1),
      some (.tickAckHigh 0#1), some (.tickBitMark 0#1), some (.tickBitHigh 0#1), some (.tickMeasure 0#1)] := by decide

/-- Two rows overlap when some word lies in both. -/
def rowsOverlap (a b : Row) : Bool := (a.value &&& b.mask) == (b.value &&& a.mask)

/-- No two rows of the opcode table overlap. -/
theorem test_rows_disjoint :
    ([Instr.nop 0#2 0#29, .read 0#2 0#29, .measure 0#2 0#29, .cmdRsv3 0#2 0#29, .cmdRsv47 0#2 0#29 0#2,
      .wrConfig 0#2 0#16 0#6 0#1 0#1 0#8, .wrStatus 0#2 0#29 0#1 0#1 0#1, .wrCount 0#2 0#32, .wrData0 0#2 0#32,
      .wrData1 0#2 0#32, .wrRaw0 0#2 0#32, .wrRaw1 0#2 0#32, .rdCmd 0#2 0#32, .rdConfig 0#2 0#32, .rdStatus 0#2 0#32,
      .rdCount 0#2 0#32, .rdData0 0#2 0#32, .rdData1 0#2 0#32, .rdRaw0 0#2 0#32, .rdRaw1 0#2 0#32].map
        Instr.row).Pairwise (fun a b => rowsOverlap a b = false) ∧
    ([Instr.tickIdle 0#1, .tickStartLow 0#1, .tickStartHigh 0#1, .tickAckLow 0#1, .tickAckHigh 0#1, .tickBitMark 0#1,
      .tickBitHigh 0#1, .tickMeasure 0#1].map Instr.row).Pairwise (fun a b => rowsOverlap a b = false) := by decide

/-- Bytes that are no instruction are rejected by name (log entry 8). -/
theorem test_decodeBytes_rejects :
    decodeBytes [] = .error (.length 0) ∧ decodeBytes [0#8, 0#8] = .error (.length 2) ∧
    decodeBytes [0x10#8] = .error .padding ∧ decodeBytes [1#8, 0#8, 0#8, 0#8, 0x60#8] = .error .padding := by decide

/-- The bits of an opcode-table word placed for fetching are what the next step runs, as the first instruction after
reset: READ gives STATUS 0x00000101 (45_host_interface.md rule R173), TICK_ACK_LOW with a 0 counts 1. -/
theorem test_placed_words_run_first :
    (nextOf (step (State.reset.withFetchWord 40 0x2000000001))).map statusWord = some 0x00000101#32 ∧
    (nextOf (step (State.reset.withFetchWord 8 3))).map (fun s => (s.phase, s.cnt)) = some (.ackLow, 1#17) := by decide

/-! Commands (45_host_interface.md rules R171 to R175). -/

/-- V-HI-8: CODE 0 is NOP while a READ runs, no CMDERR. -/
theorem test_nop_while_busy : (after (.nop 0#2 1#29) (inPhase .startLow 7#17)).map statusWord = some 0x00000101#32 := by
  decide
/-- V-HI-6: STATUS 0x00000101. -/
theorem test_read_accepted : (after (.read 0#2 0x1FFFFFFF#29) State.reset).map statusWord = some 0x00000101#32 := by
  decide
/-- V-HI-7 and V-HI-9: STATUS 0x00000105, and the READ goes on. -/
theorem test_read_rejected :
    (after (.read 0#2 0x1FFFFFFF#29) (inPhase .startLow 7#17)).map (fun s => (statusWord s, s.cnt)) =
      some (0x00000105#32, 7#17) := by decide
/-- Program P3 step 2: STATUS 0x00000701; the snapshots are CONFIG's (V-MS-1). -/
theorem test_measure_accepted :
    (after (.measure 0#2 0#29) { State.reset with mlevel := 1#1, mtimeout := 100#16 }).map
      (fun s => (statusWord s, s.mlvlS, s.mtoS)) = some (0x00000701#32, 1#1, 100#16) := by decide
/-- V-MS-8: a MEASURE keeps BITIDX and DATA of the READ before it. -/
theorem test_measure_keeps_frame :
    (after (.measure 0#2 0#29) afterP1).map (fun s => (s.bitidx, s.shift, s.data)) =
      some (40#6, 0x3E0519035F#40, 0x3E0519035F#40) := by decide
/-- V-HI-10: `WR 0x00, 3` while a READ runs: STATUS 0x00000105. -/
theorem test_cmdRsv3_sets_cmderr :
    (after (.cmdRsv3 0#2 0#29) (inPhase .startLow 0#17)).map statusWord = some 0x00000105#32 := by decide
/-- Program P5 step 4: `WR 0x00, 7` is rejected; V-HI-12: STATUS 0x00004022 becomes 0x00004026. -/
theorem test_cmdRsv47_sets_cmderr :
    (after (.cmdRsv47 0#2 0#29 3#2) { State.reset with result := .responseTimeout, errphase := 4#3, done := 1#1 }).map
      statusWord = some 0x00004026#32 := by decide

/-! Register writes (45_host_interface.md rules R176 to R178). -/

/-- V-HI-3: `WR 0x04, 0x0064021E` reads back. -/
theorem test_wrConfig_stores :
    (nextOf (step (waiting [.access (hostWrite 0x04#5 0x0064021E#32)]))).map configWord = some 0x0064021E#32 := by decide
/-- V-HI-2: `WR 0x04, 0xFFFFFFFF` reads back 0xFFFF03FF. -/
theorem test_wrConfig_reserved_bits :
    (nextOf (step (waiting [.access (hostWrite 0x04#5 0xFFFFFFFF#32)]))).map configWord = some 0xFFFF03FF#32 := by decide
/-- V-HI-11: `WR 0x08, 0xFFFFFFFF` after P1: STATUS 0x00280010. -/
theorem test_wrStatus_clears_done :
    (after (.wrStatus 0#2 0x1FFFFFFF#29 1#1 1#1 1#1) afterP1).map statusWord = some 0x00280010#32 := by decide
/-- V-HI-10: `CLRERR` leaves STATUS 0x00000101. -/
theorem test_wrStatus_clears_cmderr :
    (after (.wrStatus 0#2 0#29 1#1 0#1 0#1) { inPhase .startLow 0#17 with cmderr := 1#1 }).map statusWord =
      some 0x00000101#32 := by decide
/-- V-HI-4: writes to read-only registers are ignored, no CMDERR. -/
theorem test_wrCount_ignored : after (.wrCount 0#2 5#32) afterP1 = some afterP1 := by decide
theorem test_wrData0_ignored : after (.wrData0 0#2 5#32) afterP1 = some afterP1 := by decide
theorem test_wrData1_ignored : after (.wrData1 0#2 5#32) afterP1 = some afterP1 := by decide
theorem test_wrRaw0_ignored : after (.wrRaw0 0#2 5#32) afterP1 = some afterP1 := by decide
theorem test_wrRaw1_ignored : after (.wrRaw1 0#2 5#32) afterP1 = some afterP1 := by decide

/-! Register reads (45_host_interface.md rules R180 to R185), after program P1 and V-MS-6. -/

theorem test_rdCmd_is_zero : (after (.rdCmd 0#2 0#32) { afterP1 with rdata := 5#32 }).map (·.rdata) = some 0#32 := by decide
theorem test_rdConfig_at_reset : (after (.rdConfig 0#2 0#32) State.reset).map (·.rdata) = some 0x0050001E#32 := by decide
theorem test_rdStatus_after_P1 : (after (.rdStatus 0#2 0#32) afterP1).map (·.rdata) = some 0x00280012#32 := by decide
/-- V-FS-18: STATUS 0x00055032. -/
theorem test_rdStatus_bit_timeout :
    (after (.rdStatus 0#2 0#32) { State.reset with bitidx := 5#6, errphase := 5#3, result := .bitTimeout, done := 1#1 }).map
      (·.rdata) = some 0x00055032#32 := by decide
/-- V-MS-6: COUNT 0x10000 needs its 17th bit. -/
theorem test_rdCount_17_bits :
    (after (.rdCount 0#2 0#32) { State.reset with count := 0x10000#17 }).map (·.rdata) = some 0x00010000#32 := by decide
theorem test_rdData0_after_P1 : (after (.rdData0 1#2 0#32) afterP1).map (·.rdata) = some 0x3E051903#32 := by decide
theorem test_rdData1_after_P1 : (after (.rdData1 0#2 0#32) afterP1).map (·.rdata) = some 0x0000005F#32 := by decide
/-- V-FS-18: RAW0 0x38000000 and RAW1 0x00003800 of a partial frame. -/
theorem test_rdRaw0_partial : (after (.rdRaw0 0#2 0#32) (atBit5 1#17)).map (·.rdata) = some 0x38000000#32 := by decide
theorem test_rdRaw1_partial : (after (.rdRaw1 0#2 0#32) (atBit5 1#17)).map (·.rdata) = some 0x00003800#32 := by decide
/-- V-HI-1: RAW1 at reset. -/
theorem test_rdRaw1_at_reset : (after (.rdRaw1 0#2 0#32) State.reset).map (·.rdata) = some 0x00010000#32 := by decide

/-! Ticks. -/

/-- V-HI-16: no tick changes the words of P1's frame while no command runs. -/
theorem test_tickIdle_after_P1 : after (.tickIdle 1#1) afterP1 = some afterP1 := by decide
/-- V-SSG-1: tick 19999 and tick 20000. -/
theorem test_tickStartLow :
    (after (.tickStartLow 1#1) (inPhase .startLow 19998#17)).map (fun s => (s.phase, s.cnt)) =
      some (.startLow, 19999#17) ∧
    (after (.tickStartLow 0#1) (inPhase .startLow 19999#17)).map (fun s => (s.phase, s.cnt, lineOe s, lineOut s)) =
      some (.startHigh, 0#17, 1#1, 1#1) := by decide
/-- V-SSG-1: tick 20039 and tick 20040. -/
theorem test_tickStartHigh :
    (after (.tickStartHigh 0#1) (inPhase .startHigh 38#17)).map (fun s => (s.phase, s.cnt)) =
      some (.startHigh, 39#17) ∧
    (after (.tickStartHigh 0#1) (inPhase .startHigh 39#17)).map (fun s => (s.phase, s.cnt, lineOe s, lineOut s)) =
      some (.ackLow, 0#17, 0#1, 0#1) := by decide
/-- V-RD-1: ACK_LOW completes with COUNT 79; ACK_HIGH entered with CNT 1. -/
theorem test_tickAckLow_completes :
    (after (.tickAckLow 1#1) (inPhase .ackLow 79#17)).map (fun s => (s.phase, s.cnt, s.count)) =
      some (.ackHigh, 1#17, 79#17) := by decide
/-- V-RD-4: STATUS 0x00003022, COUNT 81. -/
theorem test_tickAckLow_timeout :
    (after (.tickAckLow 0#1) (inPhase .ackLow 80#17)).map (fun s => (statusWord s, s.count)) =
      some (0x00003022#32, 81#17) := by decide
/-- V-RD-2: ACK_HIGH completes with COUNT 80; STATUS 0x00000501. -/
theorem test_tickAckHigh_completes :
    (after (.tickAckHigh 0#1) (inPhase .ackHigh 80#17)).map (fun s => (statusWord s, s.cnt, s.count)) =
      some (0x00000501#32, 1#17, 80#17) := by decide
/-- V-RD-3: STATUS 0x00004022, COUNT 81. -/
theorem test_tickAckHigh_timeout :
    (after (.tickAckHigh 1#1) (inPhase .ackHigh 80#17)).map (fun s => (statusWord s, s.count)) =
      some (0x00004022#32, 81#17) := by decide
/-- 43_frame_sampler.md rule R141: COUNT 50, BIT_HIGH entered with CNT 1. -/
theorem test_tickBitMark_completes :
    (after (.tickBitMark 1#1) (inPhase .bitMark 50#17)).map (fun s => (s.phase, s.cnt, s.count)) =
      some (.bitHigh, 1#17, 50#17) := by decide
/-- V-FS-21: STATUS 0x00005032, COUNT 51. -/
theorem test_tickBitMark_timeout :
    (after (.tickBitMark 0#1) (inPhase .bitMark 50#17)).map (fun s => (statusWord s, s.count)) =
      some (0x00005032#32, 51#17) := by decide
/-- V-FS-3 and V-FS-4: a count of 30 is bit 0 and one of 31 is bit 1; bit 5 is SHIFT[34]. -/
theorem test_tickBitHigh_threshold :
    (after (.tickBitHigh 0#1) (atBit5 30#17)).map (fun s => (s.shift, s.bitidx, s.phase, s.cnt)) =
      some (0x3800000000#40, 6#6, .bitMark, 1#17) ∧
    (after (.tickBitHigh 0#1) (atBit5 31#17)).map (fun s => (s.shift, s.count)) =
      some (0x3C00000000#40, 31#17) := by decide
/-- V-FS-12: the frame ends VALID, STATUS 0x00280012; P4: with the last bit 0 it ends CHECKSUM_MISMATCH, 0x00280042. -/
theorem test_tickBitHigh_frame_end :
    (after (.tickBitHigh 0#1) (atLastBit 70#17)).map (fun s => (statusWord s, s.data)) =
      some (0x00280012#32, 0x3E0519035F#40) ∧
    (after (.tickBitHigh 0#1) (atLastBit 27#17)).map (fun s => (statusWord s, s.data, raw1Word s)) =
      some (0x00280042#32, 0#40, 0x00005F5E#32) := by decide
/-- V-MS-1: MEASURE_OK, COUNT 45, STATUS 0x00000052. -/
theorem test_tickMeasure_completes :
    (after (.tickMeasure 0#1) { inPhase .measure 45#17 with mlvlS := 1#1, mtoS := 100#16 }).map
      (fun s => (statusWord s, s.count)) = some (0x00000052#32, 45#17) := by decide
/-- V-MS-6: MTO_S = 65535 times out with COUNT 65536. -/
theorem test_tickMeasure_timeout :
    (after (.tickMeasure 1#1) { inPhase .measure 65535#17 with mlvlS := 1#1, mtoS := 65535#16 }).map
      (fun s => (statusWord s, s.count)) = some (0x00007062#32, 65536#17) := by decide

/-! The Pulse Timer and the Checksum Validator. -/

/-- V-PT-1 to V-PT-9, the default order. -/
theorem test_ptStep_incrementThenCheck :
    ptStep .incrementThenCheck 1#1 0#1 80 0#17 = .finished 0#17 ∧
    ptStep .incrementThenCheck 0#1 0#1 80 0#17 = .cont 1#17 ∧
    ptStep .incrementThenCheck 0#1 0#1 80 79#17 = .cont 80#17 ∧
    ptStep .incrementThenCheck 0#1 0#1 80 80#17 = .timeout 81#17 ∧
    ptStep .incrementThenCheck 1#1 0#1 80 80#17 = .finished 80#17 ∧
    ptStep .incrementThenCheck 1#1 1#1 0 0#17 = .timeout 1#17 ∧
    ptStep .incrementThenCheck 0#1 1#1 0 0#17 = .finished 0#17 ∧
    ptStep .incrementThenCheck 1#1 1#1 65535 65535#17 = .timeout 65536#17 ∧
    ptStep .incrementThenCheck 0#1 1#1 50 37#17 = .finished 37#17 := by decide

/-- V-PT-10 to V-PT-13, the other order. -/
theorem test_ptStep_checkThenIncrement :
    ptStep .checkThenIncrement 0#1 0#1 80 80#17 = .cont 81#17 ∧
    ptStep .checkThenIncrement 0#1 0#1 80 81#17 = .timeout 81#17 ∧
    ptStep .checkThenIncrement 1#1 0#1 80 81#17 = .finished 81#17 ∧
    ptStep .checkThenIncrement 1#1 1#1 0 0#17 = .cont 1#17 := by decide

/-- V-CV-1 to V-CV-9: RAW1 for each frame. -/
theorem test_checksum_vectors :
    [0x3E0519035F#40, 0x0000000000#40, 0x010203040A#40, 0x8080000000#40, 0xFFFFFFFFFC#40, 0xFFFFFFFFFF#40, 0x3E4519035F#40,
      0x3E0519035E#40, 0x3F0419035F#40].map (fun f => raw1Word { State.reset with shift := f }) =
    [0x00015F5F#32, 0x00010000#32, 0x00010A0A#32, 0x00010000#32, 0x0001FCFC#32, 0x0000FCFF#32, 0x00009F5F#32,
      0x00005F5E#32, 0x00015F5F#32] := by decide

/-- E5: stream bit 0 is SHIFT[39], bit 9 is SHIFT[30], bit 39 is SHIFT[0]. -/
theorem test_bit_placement :
    placeBit 0#40 0#6 1#1 = 0x8000000000#40 ∧ placeBit 0#40 9#6 1#1 = 0x0040000000#40 ∧
    placeBit 0xFFFFFFFFFF#40 39#6 0#1 = 0xFFFFFFFFFE#40 := by decide

/-- A waveform's sample at tick k sees the segment that contains time k (00_scope.md rule R9): high over [0, 3), then
low, is 1 at ticks 1 and 2 and 0 after that. -/
theorem test_waveform_samples : Waveform.samples [(1#1, 3), (0#1, 2)] = [1#1, 1#1, 0#1, 0#1] := by decide

/-- V-HI-9 and V-HI-10 as a host program (00_scope.md rules R10 and R11): no statement of it stops. -/
theorem test_script_command_errors :
    (HostRun.script 0
      [.read, .read, .rd 0x08#5 "s", .expect "s" 0x00000105#32, .wr 0x00#5 3#32, .nop, .clrErr, .rd 0x08#5 "s",
        .expect "s" 0x00000101#32] ⟨State.reset, [], []⟩).isOk = true := by decide

/-- An unexpected value stops a host program by name. -/
theorem test_script_unexpected :
    (match HostRun.script 0 [.rd 0x04#5 "c", .expect "c" 0#32] ⟨State.reset, [], []⟩ with
      | .ok _ => false
      | .error e => e == .unexpected "c") = true := by decide

/-- 70_reset_and_hazards.md rule R248: the run of a NOP, and of a READ that is rejected, ends at the write, with no change
to DONE and no tick. -/
theorem test_observe_ends_at_the_write :
    observeCommand 0 0#32 State.reset = some ⟨State.reset, []⟩ ∧
    observeCommand 0 1#32 (inPhase .ackLow 5#17) = some ⟨{ inPhase .ackLow 5#17 with cmderr := 1#1 }, []⟩ := by decide

/-- A MEASURE for level 1 that samples 1 and 0, with a host read between: it ends at its second tick with COUNT 1 (V-MS-1's
form), the line released at both ticks. A reset instead has no end in the sense of rule R248. -/
theorem test_observe_measure :
    (observeCommand 3 2#32
      { waiting [.tick 1#1, .access (hostRead 0x08#5), .tick 0#1] with mlevel := 1#1 }).map
        (fun o => (statusWord o.final, o.final.count, o.line)) =
      some (0x00000052#32, 1#17, [(0#1, 0#1), (0#1, 0#1)]) ∧
    observeCommand 3 2#32 { waiting [.tick 1#1, .reset, .tick 0#1] with mlevel := 1#1 } = none := by decide

/-- The interval duty of 70_reset_and_hazards.md rule R245. -/
theorem test_readsSpaced :
    readsSpaced params [0, 2000000, 4000000] = true ∧ readsSpaced params [0, 1999999] = false := by decide

/-! Witnesses of the statements' hypotheses. -/

/-- BytesDecodeOrAreRejectedByName: the boundary lists of bytes of each clause. -/
theorem witness_rejected_bytes :
    (([] : List Byte).length ≠ 1 ∧ ([] : List Byte).length ≠ 5) ∧
    (([0#8, 0#8, 0#8, 0#8] : List Byte).length ≠ 1 ∧ ([0#8, 0#8, 0#8, 0#8] : List Byte).length ≠ 5) ∧
    16 ≤ (0x10#8 : Byte).toNat ∧ 64 ≤ (0x40#8 : Byte).toNat := by decide

/-- StepRunsTheDecodedInstruction: a waiting access, a waiting tick, nothing waiting. -/
theorem witness_step_runs :
    ((waiting [.access (hostRead 0x1C#5), .reset]).inputs = .access (hostRead 0x1C#5) :: [.reset] ∧
      (hostRead 0x1C#5).width = 32) ∧
    (waiting [.tick 1#1]).inputs = .tick 1#1 :: [] ∧ State.reset.inputs = [] := by decide

/-- PlacedWordRunsNext: a request word and a tick word. -/
theorem witness_placed_word :
    rawOfBytes (tableBytes 38 0x3C00000005) = .ok (.bus 0x3C00000005#38) ∧
    rawOfBytes (tableBytes 3 7) = .ok (.tick 7#3 0#1) := by decide

/-- TickRunsTheRuleOfItsPhase: a waiting tick in each phase. -/
theorem witness_tick_in_each_phase :
    ∀ q ∈ [Phase.idle, .startLow, .startHigh, .ackLow, .ackHigh, .bitMark, .bitHigh, .measure],
      ({ waiting [.tick 0#1] with phase := q } : State).inputs = .tick 0#1 :: [] ∧
      ({ waiting [.tick 0#1] with phase := q } : State).phase = q := by decide

/-- AccessIsSelectedByWordAddress: two offsets of one register, at each end of its word; and an access of 16 bits. -/
theorem witness_access_selection :
    ((hostRead 0x10#5).width = 32 ∧ (hostRead 0x13#5).width = 32 ∧ (hostRead 0x10#5).we = (hostRead 0x13#5).we ∧
      (hostRead 0x10#5).wdata = (hostRead 0x13#5).wdata ∧
      (hostRead 0x10#5).off.extractLsb' 2 3 = (hostRead 0x13#5).off.extractLsb' 2 3) ∧
    (⟨16, 1#1, 0x08#5, 2#32⟩ : Access).width ≠ 32 := by decide

/-- V-HI-5 and 20_memory.md rule R51: an access at 0x11 or 0x13 is one to DATA0, and 16 bits are declined. -/
theorem test_access_selection :
    (nextOf (step { afterP1 with inputs := [.access (hostRead 0x11#5)] })).map (·.rdata) = some 0x3E051903#32 ∧
    (nextOf (step { afterP1 with inputs := [.access (hostRead 0x13#5)] })).map (·.rdata) = some 0x3E051903#32 ∧
    nextOf (step { afterP1 with inputs := [.access ⟨16, 0#1, 0x10#5, 0#32⟩] }) = none := by decide

/-- ControlRegisterReads: states with the STATUS words of its two last clauses (after P1 and after V-RD-3). -/
theorem witness_status_words :
    (afterP1.phase = .idle ∧ afterP1.bitidx = 40#6 ∧ afterP1.errphase = 0#3 ∧ afterP1.result = .valid ∧
      afterP1.cmderr = 0#1 ∧ afterP1.done = 1#1) ∧
    (∃ s : State, s.phase = .idle ∧ s.bitidx = 0#6 ∧ s.errphase = 4#3 ∧ s.result = .responseTimeout ∧ s.cmderr = 0#1 ∧
      s.done = 1#1) :=
  ⟨by decide, { State.reset with errphase := 4#3, result := .responseTimeout, done := 1#1 }, by decide⟩

/-- The offsets of each kind of write (ReadOnlyRegisterWritesAreIgnored from its first to its last register,
ConfigWriteStoresItsFields, StatusWriteClearsItsFlags, CommandWriteDispatch). -/
theorem witness_write_offsets :
    3 ≤ ((0x0C#5 : Offset).extractLsb' 2 3).toNat ∧ 3 ≤ ((0x1F#5 : Offset).extractLsb' 2 3).toNat ∧
    (0x07#5 : Offset).extractLsb' 2 3 = 1#3 ∧ (0x08#5 : Offset).extractLsb' 2 3 = 2#3 ∧
    (0x0B#5 : Offset).extractLsb' 2 3 = 2#3 ∧ (0x00#5 : Offset).extractLsb' 2 3 = 0#3 ∧
    (0x03#5 : Offset).extractLsb' 2 3 = 0#3 := by decide

/-- NopChangesNothing: a CMD write of 8 (V-HI-8), at the last offset of CMD. -/
theorem witness_nop_word :
    (0x03#5 : Offset).extractLsb' 2 3 = 0#3 ∧ (0x00000008#32 : Word).extractLsb' 0 3 = 0#3 := by decide

/-- ConfigWriteStoresItsFields: a state with DONE = 1. -/
theorem witness_done : afterP1.done = 1#1 := by decide

/-- StatusWriteClearsItsFlags: a tick that ends a MEASURE with `CLRDONE` behind it (V-HI-14), and a state whose STATUS is
0x00280012. -/
theorem witness_w1c_after_tick :
    (∃ s t : State, s.inputs = .tick 0#1 :: .access (hostWrite 0x08#5 2#32) :: [] ∧ step s = .next t ∧ t.done = 1#1) ∧
    statusWord afterP1 = 0x00280012#32 :=
  ⟨⟨{ waiting [.tick 0#1, .access (hostWrite 0x08#5 2#32)] with phase := .measure, cnt := 3#17, mlvlS := 1#1 },
    { waiting [.access (hostWrite 0x08#5 2#32)] with
      mlvlS := 1#1, count := 3#17, result := .measureOk, done := 1#1 }, by decide, rfl, by decide⟩, by decide⟩

/-- CommandWriteDispatch: a tick that ends a command with a READ behind it (V-HI-13). -/
theorem witness_read_after_end :
    ∃ s t : State, s.inputs = .tick 0#1 :: .access (hostWrite 0x00#5 1#32) :: [] ∧ step s = .next t ∧ t.phase = .idle :=
  ⟨{ waiting [.tick 0#1, .access (hostWrite 0x00#5 1#32)] with phase := .measure, cnt := 3#17, mlvlS := 1#1 },
    { waiting [.access (hostWrite 0x00#5 1#32)] with
      mlvlS := 1#1, count := 3#17, result := .measureOk, done := 1#1 }, by decide, rfl, by decide⟩

/-- ReadAcceptance and MeasureAcceptance: the state after reset, the state after P1, and V-MS-1's CONFIG. -/
theorem witness_idle :
    State.reset.phase = .idle ∧ State.reset.cmderr = 0#1 ∧ afterP1.phase = .idle ∧
    (∃ s : State, s.phase = .idle ∧ s.mlevel = 1#1 ∧ s.mtimeout = 100#16 ∧ 0 ≤ 100 ∧ 100 ≤ 100) :=
  ⟨by decide, by decide, by decide, { State.reset with mlevel := 1#1, mtimeout := 100#16 }, by decide⟩

/-- RejectionSetsStickyCmderr: every busy phase, and a step with CMDERR = 1 of which the flag stays, a step with a W1C
and a step with a reset. -/
theorem witness_rejection :
    (∀ q ∈ [Phase.startLow, .startHigh, .ackLow, .ackHigh, .bitMark, .bitHigh, .measure], (inPhase q 0#17).phase ≠ .idle) ∧
    step { waiting [.access (hostRead 0x00#5)] with cmderr := 1#1 } = .next { State.reset with cmderr := 1#1 } ∧
    step { waiting [.access (hostWrite 0x08#5 4#32)] with cmderr := 1#1 } = .next State.reset ∧
    step { waiting [.reset] with cmderr := 1#1 } = .next State.reset :=
  ⟨by decide, rfl, rfl, rfl⟩

/-- HostCannotDisturbACommand: a READ that is rejected while another runs. -/
theorem witness_busy_access :
    ({ inPhase .ackHigh 5#17 with inputs := [.access (hostWrite 0x00#5 1#32)] } : State).phase ≠ .idle ∧
    step { inPhase .ackHigh 5#17 with inputs := [.access (hostWrite 0x00#5 1#32)] } =
      .next { inPhase .ackHigh 5#17 with cmderr := 1#1 } :=
  ⟨by decide, rfl⟩

/-- The default build is legal and in the default order (StartSequenceTiming, EveryTickKeepsTheInvariant,
EveryCommandEnds, ReadDecodesTheSensorsFrame, MeasureCountsSamples). -/
theorem witness_params_legal : params.wf ∧ params.order = .incrementThenCheck := by decide

/-- A small legal build: every duration and bound 1. -/
def smallBuild : Params :=
  { params with tStartLow := 1, tStartHigh := 1, toAckLow := 1, toAckHigh := 1, toMark := 1, toHigh := 1 }

theorem witness_smallBuild_legal : smallBuild.wf ∧ smallBuild.order = .incrementThenCheck := by decide

/-- The default build and the small one in the other comparison order. -/
def otherOrder : Params := { params with order := .checkThenIncrement }

def smallOtherOrder : Params := { smallBuild with order := .checkThenIncrement }

theorem witness_otherOrder_legal :
    otherOrder.wf ∧ smallOtherOrder.wf ∧ otherOrder.order = .checkThenIncrement ∧
    smallOtherOrder.order = .checkThenIncrement := by decide

/-- V-TM-2 and V-TM-3: the longest READ of each order. -/
theorem test_readBound : readBound params = 25401 ∧ readBound otherOrder = 25483 := by decide

/-- 48 MHz makes 48 clocks of 1000 ns; a clock whose period is longer than the tick makes none (log entry 6). -/
theorem test_clocksIn : clocksIn params 48000000 = 48 ∧ clocksIn params 500000 = 0 := by
  constructor
  · norm_num [clocksIn, params, Rat.floor]; rfl
  · norm_num [clocksIn, params, Rat.floor]

/-- StartSequenceTicks: the two driven phases. StartSequenceTiming: lists of samples at the ends of its three ranges. -/
theorem witness_start_sequence :
    (inPhase .startLow 0#17).phase = .startLow ∧ (inPhase .startHigh 0#17).phase = .startHigh ∧
    ([] : List Bit).length < smallBuild.tStartLow ∧
    (smallBuild.tStartLow ≤ [0#1].length ∧ [0#1].length < smallBuild.tStartLow + smallBuild.tStartHigh) ∧
    [0#1, 1#1].length = smallBuild.tStartLow + smallBuild.tStartHigh := by decide

/-- SampleIsIgnoredOutsideWaits: its three phases. -/
theorem witness_no_wait_phase :
    ∀ q ∈ [Phase.idle, .startLow, .startHigh],
      (inPhase q 0#17).phase = .idle ∨ (inPhase q 0#17).phase = .startLow ∨ (inPhase q 0#17).phase = .startHigh := by
  decide

/-- PulseTimerStep: each clause, at the ends of the ranges of bound and count. -/
theorem witness_pulse_timer :
    (65535 ≤ 65535 ∧ (65535#17 : TickCount).toNat ≤ 65535 ∧ (1#1 : Bit) ≠ 0#1) ∧
    (0 ≤ 65535 ∧ (0#17 : TickCount).toNat ≤ 0 ∧ (0#17 : TickCount).toNat + 1 > 0) ∧
    ((65535#17 : TickCount).toNat + 1 > 65535) ∧
    ((79#17 : TickCount).toNat ≤ 80 ∧ (79#17 : TickCount).toNat + 1 ≤ 80) ∧
    ((65534#17 : TickCount).toNat ≤ 65535 ∧ (65534#17 : TickCount).toNat + 1 ≤ 65535) := by decide

/-- WaitCountsSamples and CheckThenIncrementOrder: n at each side of the boundary (section 2.1's whole waits, bound 80),
with a sample at the other level. -/
theorem witness_whole_waits :
    (80 ≤ 65535 ∧ 0 ≤ 80 ∧ 80 ≤ 80 ∧ 80 < 81 ∧ (1#1 : Bit) ≠ 0#1) ∧ (81 ≤ 80 + 1 ∧ 80 + 1 < 82) := by decide

/-- AckLowTick and AckHighTick, BitMarkTick, BitHighTick: CNT at the ends of each range. -/
theorem witness_wait_counts :
    (inPhase .ackLow 0#17).cnt.toNat < 80 ∧ (inPhase .ackLow 79#17).cnt.toNat < 80 ∧ (inPhase .ackLow 80#17).cnt = 80#17 ∧
    ((inPhase .ackLow 0#17).phase = .ackLow ∧ (inPhase .ackLow 0#17).cnt = 0#17) ∧
    (inPhase .bitMark 1#17).cnt.toNat < 50 ∧ (inPhase .bitMark 49#17).cnt.toNat < 50 ∧
    (inPhase .bitMark 50#17).cnt = 50#17 := by decide

/-- BitHighTick: the bit before the last and the last, with a frame that passes the checksum and one that does not. -/
theorem witness_bit_index :
    ({ atBit5 1#17 with bitidx := 38#6 } : State).bitidx.toNat < 39 ∧ (atBit5 1#17).bitidx.toNat < 39 ∧
    (atLastBit 70#17).bitidx = 39#6 ∧
    (0x3E0519035F#40 = placeBit (atLastBit 70#17).shift 39#6
        (if (atLastBit 70#17).thrS.toNat < (atLastBit 70#17).cnt.toNat then 1#1 else 0#1) ∧
      frameCheck 0x3E0519035F#40 = true) ∧
    (0x3E0519035E#40 = placeBit (atLastBit 27#17).shift 39#6
        (if (atLastBit 27#17).thrS.toNat < (atLastBit 27#17).cnt.toNat then 1#1 else 0#1) ∧
      frameCheck 0x3E0519035E#40 = false) := by decide

/-- AckHighTick, BitMarkTick and BitHighTick: steps that enter the three phases, from each phase that leads there. -/
theorem witness_chained_entries :
    step { inPhase .ackLow 79#17 with inputs := [.tick 1#1] } = .next { inPhase .ackHigh 1#17 with count := 79#17 } ∧
    step { inPhase .ackHigh 80#17 with inputs := [.tick 0#1] } = .next { inPhase .bitMark 1#17 with count := 80#17 } ∧
    (nextOf (step { atBit5 27#17 with inputs := [.tick 0#1] })).map (fun s => (s.phase, s.cnt)) =
      some (.bitMark, 1#17) ∧
    step { inPhase .bitMark 50#17 with inputs := [.tick 1#1] } = .next { inPhase .bitHigh 1#17 with count := 50#17 } :=
  ⟨rfl, rfl, by decide, rfl⟩

/-- A MEASURE that waits for level 1 with MTO_S = `b`, at CNT = `c`. -/
def measuring (b : BitVec 16) (c : TickCount) : State := { inPhase .measure c with mlvlS := 1#1, mtoS := b }

/-- MeasureTick: each clause, at MTO_S = 0, 100 and 65535. MeasureCountsSamples: its start, with n at both ends. -/
theorem witness_measure :
    (1#1 = (measuring 100#16 99#17).mlvlS ∧ (measuring 100#16 99#17).cnt.toNat < (measuring 100#16 99#17).mtoS.toNat) ∧
    (1#1 = (measuring 0#16 0#17).mlvlS ∧ (measuring 0#16 0#17).cnt.toNat = (measuring 0#16 0#17).mtoS.toNat) ∧
    ((measuring 65535#16 65535#17).cnt.toNat = (measuring 65535#16 65535#17).mtoS.toNat) ∧
    0#1 ≠ (measuring 100#16 45#17).mlvlS ∧
    ((measuring 100#16 0#17).phase = .measure ∧ (measuring 100#16 0#17).cnt = 0#17 ∧
      0 ≤ (measuring 100#16 0#17).mtoS.toNat ∧ 100 ≤ (measuring 100#16 0#17).mtoS.toNat) := by decide

/-- TicksLeaveTheHostsRegistersAlone: a tick that ends a command. -/
theorem witness_tick_frame :
    Instr.tickMeasure 0#1 ∈ [Instr.tickIdle 0#1, .tickStartLow 0#1, .tickStartHigh 0#1, .tickAckLow 0#1, .tickAckHigh 0#1,
      .tickBitMark 0#1, .tickBitHigh 0#1, .tickMeasure 0#1] ∧
    exec (.tickMeasure 0#1) (measuring 100#16 45#17) =
      .next { measuring 100#16 0#17 with phase := .idle, count := 45#17, result := .measureOk, done := 1#1 } :=
  ⟨by decide, rfl⟩

/-- BitValue: counts and thresholds at the ends of each clause, and a step while a READ runs. -/
theorem witness_bit_value :
    ((30#17 : TickCount).toNat ≤ 30) ∧ (31 ≤ (31#17 : TickCount).toNat ∧ (80#17 : TickCount).toNat ≤ 80) ∧
    (80 ≤ (80#8 : Byte).toNat ∧ 80 ≤ (255#8 : Byte).toNat) ∧ ((30#17 : TickCount).toNat ≤ (31#17 : TickCount).toNat) ∧
    (step { atBit5 30#17 with inputs := [.access (hostWrite 0x04#5 0#32)] } =
        .next { atBit5 30#17 with thresh := 0#8, mtimeout := 0#16 } ∧
      (atBit5 30#17).phase ≠ .idle ∧
      nextIsReset { atBit5 30#17 with inputs := [.access (hostWrite 0x04#5 0#32)] } = false) :=
  ⟨by decide, by decide, by decide, by decide, rfl, by decide, by decide⟩

/-- BitPlacement and SingleBitFlipIsDetected: the first and the last bit, and frames that pass the checksum. -/
theorem witness_bits_of_a_frame :
    (0#6 : BitVec 6).toNat < 40 ∧ (39#6 : BitVec 6).toNat < 40 ∧ (0 ≠ 39 - (0#6 : BitVec 6).toNat) ∧
    (0 < 40 ∧ frameCheck 0x3E0519035F#40 = true) ∧ (39 < 40 ∧ frameCheck 0xFFFFFFFFFC#40 = true) := by decide

/-- ChecksumViewFollowsShift: two states with one SHIFT. -/
theorem witness_same_shift : afterP1.shift = ({ State.reset with shift := 0x3E0519035F#40 } : State).shift := by decide

/-- The step that ends program P1's READ: the state before it and the state after it. -/
def lastTick : State := { atLastBit 70#17 with inputs := [.tick 0#1] }

theorem test_lastTick_step : step lastTick = .next afterP1 := rfl

/-- DataChangesOnlyAtAValidFrameEnd and CommandEndRecordsOneOutcome: program P1's last tick. -/
theorem witness_valid_frame_end :
    step lastTick = .next afterP1 ∧ nextIsReset lastTick = false ∧ afterP1.data ≠ lastTick.data ∧
    lastTick.phase ≠ .idle ∧ afterP1.phase = .idle :=
  ⟨rfl, by decide, by decide, by decide, by decide⟩

/-- TimeoutRecord: each wait phase at its last count, in the default build, in the small one, and in the other order. -/
theorem witness_at_the_bounds :
    (inPhase .ackLow 80#17).cnt.toNat = params.toAckLow + params.slack ∧
    (inPhase .ackHigh 80#17).cnt.toNat = params.toAckHigh + params.slack ∧
    (inPhase .bitMark 50#17).cnt.toNat = params.toMark + params.slack ∧
    (inPhase .bitHigh 80#17).cnt.toNat = params.toHigh + params.slack ∧
    (inPhase .bitMark 1#17).cnt.toNat = smallBuild.toMark + smallBuild.slack ∧
    ((measuring 0#16 0#17).phase = .measure ∧
      (measuring 0#16 0#17).cnt.toNat = (measuring 0#16 0#17).mtoS.toNat + params.slack) ∧
    (inPhase .ackLow 81#17).cnt.toNat = otherOrder.toAckLow + otherOrder.slack ∧
    (inPhase .ackHigh 81#17).cnt.toNat = otherOrder.toAckHigh + otherOrder.slack ∧
    (inPhase .bitMark 51#17).cnt.toNat = otherOrder.toMark + otherOrder.slack ∧
    (inPhase .bitHigh 81#17).cnt.toNat = otherOrder.toHigh + otherOrder.slack ∧
    (measuring 65535#16 65536#17).cnt.toNat = (measuring 65535#16 65536#17).mtoS.toNat + otherOrder.slack := by
  decide

/-- Section 2.8's stuck line in the other order: COUNT is 81, with ERRPHASE 4. -/
theorem test_timeout_other_order :
    (statusWord (tick otherOrder 1#1 (inPhase .ackHigh 81#17)), (tick otherOrder 1#1 (inPhase .ackHigh 81#17)).count) =
      (0x00004022#32, 81#17) ∧
    (tick otherOrder 1#1 (inPhase .ackHigh 80#17)).phase = .ackHigh := by decide

/-- CommandEndRecordsOneOutcome: a timeout in each wait phase ends a command. -/
theorem witness_timeouts :
    ∀ q ∈ [(Phase.ackLow, 80#17, 0#1), (.ackHigh, 80#17, 1#1), (.bitMark, 50#17, 0#1), (.bitHigh, 80#17, 1#1),
        (.measure, 80#17, 0#1)],
      (nextOf (step { inPhase q.1 q.2.1 with inputs := [.tick q.2.2] })).map (fun s => (s.phase, s.done)) =
        some (.idle, 1#1) := by decide

/-- RecordStaysUntilTheNextCommand: an access that clears DONE, and one that does not. -/
theorem witness_record_stays :
    (step { afterP1 with inputs := [.access (hostWrite 0x08#5 2#32)] } = .next { afterP1 with done := 0#1 } ∧
      nextIsReset { afterP1 with inputs := [.access (hostWrite 0x08#5 2#32)] } = false ∧
      ({ afterP1 with done := 0#1 } : State).phase = .idle) ∧
    step { afterP1 with inputs := [.access (hostRead 0x10#5)] } = .next { afterP1 with rdata := 0x3E051903#32 } :=
  ⟨⟨rfl, by decide, by decide⟩, rfl⟩

/-- InterruptRisesAndFalls: a rise at a command's end, a rise at a CONFIG write, and a fall for each of its causes
(V-HI-15, V-HI-17). -/
theorem witness_interrupt :
    (irq { lastTick with ie := 1#1 } = 0#1 ∧ step { lastTick with ie := 1#1 } = .next { afterP1 with ie := 1#1 } ∧
      irq { afterP1 with ie := 1#1 } = 1#1) ∧
    (irq afterP1 = 0#1 ∧ step { afterP1 with inputs := [.access (hostWrite 0x04#5 0x0050011E#32)] } =
      .next { afterP1 with ie := 1#1 }) ∧
    (∀ e ∈ [Event.reset, .access (hostWrite 0x08#5 2#32), .access (hostWrite 0x04#5 0x0050001E#32),
        .access (hostWrite 0x00#5 1#32), .access (hostWrite 0x00#5 2#32)],
      (nextOf (step { afterP1 with ie := 1#1, inputs := [e] })).map irq = some 0#1) :=
  ⟨⟨by decide, rfl, by decide⟩, ⟨by decide, rfl⟩, by decide⟩

/-- OutputsFollowPhase: a state in which the line is released. -/
theorem witness_line_released : lineOe State.reset = 0#1 := by decide

/-- PhaseFollowsTheReadSequence: a step that changes PHASE for each of its causes: a reset, a tick, a READ and a
MEASURE. -/
theorem witness_phase_changes :
    (nextOf (step { inPhase .startLow 5#17 with inputs := [.reset] })).map (·.phase) = some .idle ∧
    (nextOf (step { inPhase .ackLow 79#17 with inputs := [.tick 1#1] })).map (·.phase) = some .ackHigh ∧
    (nextOf (step (waiting [.access (hostWrite 0x00#5 1#32)]))).map (·.phase) = some .startLow ∧
    (nextOf (step (waiting [.access (hostWrite 0x00#5 2#32)]))).map (·.phase) = some .measure := by decide

/-- ReadIgnoresMeasureRegisters: a READ is not in MEASURE. -/
theorem witness_not_measuring : (atBit5 1#17).phase ≠ .measure := by decide

/-- ConfigWriteIsHarmlessToACommand: a CONFIG write, and then a READ or a MEASURE that is accepted. -/
theorem witness_config_then_command :
    exec (.wrConfig 0#2 100#16 0#6 1#1 0#1 25#8) State.reset =
      .next { State.reset with thresh := 25#8, mlevel := 1#1, mtimeout := 100#16 } ∧
    (after (.read 0#2 0#29) { State.reset with thresh := 25#8, mlevel := 1#1, mtimeout := 100#16 }).map (·.thrS) =
      some 25#8 ∧
    (after (.measure 0#2 0#29) { State.reset with thresh := 25#8, mlevel := 1#1, mtimeout := 100#16 }).map
      (fun s => (s.mlvlS, s.mtoS)) = some (1#1, 100#16) :=
  ⟨rfl, by decide, by decide⟩

/-- ResetEventRestoresResetState: a reset in a running READ (V-HI-17), and its line outputs at once. -/
theorem witness_reset_event :
    ({ inPhase .startLow 10000#17 with inputs := [.reset] } : State).inputs = .reset :: [] ∧
    (nextOf (step { inPhase .startLow 10000#17 with inputs := [.reset] })).map lineOe = some 0#1 := by decide

/-- TickComesBeforeHostAccess: a clock with `rst`, a clock with an access and a clock without; a waiting clock; a read
behind the tick that ends P1's READ. -/
theorem witness_one_clock :
    (⟨1#1, 0#1, some (hostRead 0x08#5)⟩ : ClockInputs).rst = 1#1 ∧
    ((⟨0#1, 0#1, some (hostRead 0x08#5)⟩ : ClockInputs).rst = 0#1 ∧
      (⟨0#1, 0#1, some (hostRead 0x08#5)⟩ : ClockInputs).access = some (hostRead 0x08#5)) ∧
    (⟨0#1, 0#1, none⟩ : ClockInputs).access = none ∧
    (waiting [.clock 1#1]).inputs = .clock 1#1 :: [] ∧
    step { lastTick with inputs := [.tick 0#1, .access (hostRead 0x08#5)] } =
      .next { afterP1 with inputs := [.access (hostRead 0x08#5)] } :=
  ⟨by decide, ⟨by decide, by decide⟩, by decide, by decide, rfl⟩

/-- EveryStepKeepsTheInvariant: the invariant holds after reset, before and after program P1's last tick, and after
V-RD-4. -/
theorem witness_inv_reset : Inv params State.reset := ⟨by decide, by decide, by decide, by decide⟩

theorem witness_inv_lastTick : Inv params lastTick ∧ step lastTick = .next afterP1 ∧ Inv params afterP1 :=
  ⟨⟨by decide, by decide, by decide, by decide⟩, rfl, ⟨by decide, by decide, by decide, by decide⟩⟩

theorem witness_inv_timeout :
    Inv params { State.reset with count := 81#17, result := .responseTimeout, errphase := 3#3, done := 1#1 } :=
  ⟨by decide, by decide, by decide, by decide⟩

/-- EveryTickKeepsTheInvariant: the small build, in ACK_HIGH. -/
theorem witness_inv_smallBuild : Inv smallBuild (inPhase .ackHigh 1#17) :=
  ⟨by decide, by decide, by decide, by decide⟩

/-- EveryTickKeepsTheInvariant: the other order, with a count that the default order does not have. -/
theorem witness_inv_otherOrder : Inv otherOrder (inPhase .ackHigh 81#17) :=
  ⟨by decide, by decide, by decide, by decide⟩

/-- DataAlwaysPassesTheChecksum: before program P1's last tick. -/
theorem witness_data_checked : frameCheck lastTick.data = true ∧ step lastTick = .next afterP1 := ⟨by decide, rfl⟩

/-- EveryCommandEnds: samples enough for a MEASURE with MTO_S = 0, and for a READ in the small build, in each order. -/
theorem witness_enough_samples :
    ({ State.reset with mtimeout := 0#16 } : State).acceptMeasure.mtoS.toNat + 1 ≤ [0#1].length ∧
    ({ State.reset with mtimeout := 0#16 } : State).acceptMeasure.mtoS.toNat + 2 ≤ [0#1, 0#1].length ∧
    readBound smallOtherOrder ≤ (List.replicate 167 0#1).length ∧
    smallBuild.tStartLow + smallBuild.tStartHigh + (smallBuild.toAckLow + 1) + smallBuild.toAckHigh +
      smallBuild.nbits * (smallBuild.toMark + smallBuild.toHigh) ≤ (List.replicate 85 0#1).length :=
  ⟨by decide, by decide, by rw [List.length_replicate]; decide, by decide⟩

/-- ReadDecodesTheSensorsFrame: a frame of 40 pulses in the small build, with acknowledgment counts at both ends of
their ranges. -/
theorem witness_sensor_frame :
    (⟨0, 1, List.replicate 40 (1, 1)⟩ : SensorFrame).inTolerance smallBuild ∧
    (⟨1, 1, List.replicate 40 (1, 1)⟩ : SensorFrame).inTolerance smallBuild ∧
    (⟨2, 2, List.replicate 40 (2, 2)⟩ : SensorFrame).inTolerance smallOtherOrder ∧
    [0#1, 1#1].length = smallBuild.tStartLow + smallBuild.tStartHigh := by decide

/-- ReadDecodesTheSensorsFrame: pulses of the widths of program P1 stay within the default build's bounds. -/
theorem witness_P1_pulses : (⟨79, 80, List.replicate 40 (50, 27)⟩ : SensorFrame).inTolerance params := by decide

/-- Program P1's first byte, 0x3E, from its high counts (the per-bit trace of P1). -/
theorem test_pulseFrame_first_byte :
    pulseFrame 30 [(50, 27), (50, 27), (50, 70), (50, 70), (50, 70), (50, 70), (50, 70), (50, 27)] = 0x3E#40 := by decide

end Sys2Proof.Tests
end

section
/-! The outputs as functions of PHASE (10_state.md rule R23, 41_start_sequence.md rule R123) and the reset state
(10_state.md rule R37). -/

namespace Sys2Proof.Machine

section outputs
variable {s : State}

theorem busy_eq_one_iff : busy s = 1#1 ↔ s.phase ≠ .idle := by simp [busy]

theorem busy_eq_zero_iff : busy s = 0#1 ↔ s.phase = .idle := by simp [busy]

theorem lineOe_eq_one_iff : lineOe s = 1#1 ↔ s.phase = .startLow ∨ s.phase = .startHigh := by
  simp [lineOe, or_iff_not_imp_left]

theorem lineOe_eq_zero_iff : lineOe s = 0#1 ↔ s.phase ≠ .startLow ∧ s.phase ≠ .startHigh := by simp [lineOe]

theorem lineOut_eq_one_iff : lineOut s = 1#1 ↔ s.phase = .startHigh := by simp [lineOut]

theorem lineOut_eq_zero_iff : lineOut s = 0#1 ↔ s.phase ≠ .startHigh := by simp [lineOut]

/-- An IDLE block does not drive the line. -/
theorem lineOe_of_idle (h : s.phase = .idle) : lineOe s = 0#1 := lineOe_eq_zero_iff.mpr (by simp [h])

theorem lineOut_of_lineOe_zero (h : lineOe s = 0#1) : lineOut s = 0#1 :=
  lineOut_eq_zero_iff.mpr (lineOe_eq_zero_iff.mp h).2

/-- STATUS.BUSY (30_encoding.md rule R73). -/
theorem statusWord_busy : (statusWord s).extractLsb' 0 1 = busy s := by
  rw [statusWord, extract_append_low _ _ _ (by decide), extract_all]

end outputs

/-! The words of the zero frame (30_encoding.md rules R75 to R78). -/

@[simp] theorem frameHigh_zero : frameHigh 0#40 = 0#32 := BitVec.extractLsb'_zero

@[simp] theorem frameByte_zero (k : Nat) : frameByte 0#40 k = 0#8 := BitVec.extractLsb'_zero

@[simp] theorem frameSum_zero : frameSum 0#40 = 0#8 := by simp [frameSum]

/-- The zero frame passes the checksum (44_checksum_validator.md rule R164). -/
@[simp] theorem frameCheck_zero : frameCheck 0#40 = true := by simp [frameCheck]

section zeroFrames
variable {s : State}

theorem data0Word_of_data_zero (h : s.data = 0#40) : data0Word s = 0#32 := by simp [data0Word, h]

theorem data1Word_of_data_zero (h : s.data = 0#40) : data1Word s = 0#32 := by simp [data1Word, h]

theorem raw0Word_of_shift_zero (h : s.shift = 0#40) : raw0Word s = 0#32 := by simp [raw0Word, h]

/-- RAW1.MATCH is the one bit set. -/
theorem raw1Word_of_shift_zero (h : s.shift = 0#40) : raw1Word s = 0x00010000#32 := by simp [raw1Word, h]

end zeroFrames

/-! The reset state. -/

theorem reset_configWord : configWord State.reset = 0x0050001E#32 := by decide

theorem reset_statusWord : statusWord State.reset = 0#32 := by decide

theorem reset_countWord : countWord State.reset = 0#32 := by decide

/-- Settles O48: each output's values by its equivalence with PHASE, BUSY's place by the layout of STATUS. -/
theorem outputsFollowPhase : Obligations.OutputsFollowPhase := fun _ =>
  ⟨busy_eq_one_iff, statusWord_busy, lineOe_eq_one_iff, lineOut_eq_one_iff, lineOut_of_lineOe_zero⟩

/-- Settles O52: the stored fields are those of `State.reset`; the outputs follow from IDLE, and the words of DATA and
SHIFT from the zero frame. -/
theorem resetValues : Obligations.ResetValues := by
  have idle : State.reset.phase = .idle := rfl
  have released : lineOe State.reset = 0#1 := lineOe_of_idle idle
  refine ⟨idle, busy_eq_zero_iff.mpr idle, ?cnt, ?bitidx, ?shift, ?data, ?count, ?thresh, ?ie, ?mlevel, ?mtimeout,
    ?done, ?cmderr, ?result, ?errphase, ?thrS, ?mlvlS, ?mtoS, ?tickgen, released, lineOut_of_lineOe_zero released,
    ?irq, ?cmdWord, reset_configWord, reset_statusWord, reset_countWord, data0Word_of_data_zero rfl,
    data1Word_of_data_zero rfl, raw0Word_of_shift_zero rfl, raw1Word_of_shift_zero rfl⟩ <;> rfl

end Sys2Proof.Machine
end

section
/-! PT_STEP at the bound in either comparison order, and a whole wait as the count of its leading samples
(40_pulse_timer.md rules R101, R102 and R109). -/

namespace Sys2Proof

/-- How far a count may exceed its bound without a timeout, by the comparison order alone (rules R101 and R109). -/
def CheckOrder.slack : CheckOrder → Nat
  | .incrementThenCheck => 0
  | .checkThenIncrement => 1

theorem CheckOrder.slack_le_one (o : CheckOrder) : o.slack ≤ 1 := by cases o <;> decide

theorem Params.slack_eq (p : Params) : p.slack = p.order.slack := by
  unfold Params.slack
  cases p.order <;> rfl

namespace Machine

section ptStep
variable (o : CheckOrder) (lvl : Bit) {bound : Nat} {cnt : TickCount}

/-- A sample at the level counts on while the count is below the bound, the slack of the order included. -/
theorem ptStep_self_cont (hb : bound ≤ 65535) (h : cnt.toNat < bound + o.slack) :
    ptStep o lvl lvl bound cnt = .cont (cnt + 1#17) := by
  cases o <;> simp only [CheckOrder.slack] at h
  · rw [ptStep_inc_self, toNat_succ (by omega), if_neg (by omega)]
  · rw [ptStep_chk_self, if_neg (by omega)]

/-- A sample at the level times out at the bound, with the value bound + 1 in either order. -/
theorem ptStep_self_timeout (hb : bound ≤ 65535) (h : cnt.toNat = bound + o.slack) :
    ptStep o lvl lvl bound cnt = .timeout (BitVec.ofNat 17 (bound + 1)) := by
  obtain rfl : cnt = BitVec.ofNat 17 (bound + o.slack) := BitVec.eq_of_toNat_eq (by rw [BitVec.toNat_ofNat]; omega)
  cases o <;> simp only [CheckOrder.slack] at h ⊢
  · rw [ptStep_inc_self, toNat_succ (by omega), if_pos (by omega), BitVec.ofNat_add_ofNat]
  · rw [ptStep_chk_self, if_pos (by omega)]

end ptStep

section wait
variable {o : CheckOrder} {lvl smp : Bit} {bound n : Nat} {cnt c : TickCount} {rest : List Bit}

theorem waitForLevelChange_of_ne (h : smp ≠ lvl) :
    waitForLevelChange o lvl bound (smp :: rest) cnt = some (.finished cnt, 1) := by
  simp only [waitForLevelChange, ptStep_of_ne o h]

theorem waitForLevelChange_of_timeout (h : ptStep o smp lvl bound cnt = .timeout c) :
    waitForLevelChange o lvl bound (smp :: rest) cnt = some (.timeout c, 1) := by
  simp only [waitForLevelChange, h]

theorem waitForLevelChange_of_cont (h : ptStep o smp lvl bound cnt = .cont c) :
    waitForLevelChange o lvl bound (smp :: rest) cnt =
      (waitForLevelChange o lvl bound rest c).map (Prod.map id (· + 1)) := by
  simp only [waitForLevelChange, h]
  cases waitForLevelChange o lvl bound rest c <;> rfl

/-- Samples at the level within the bound are counted one by one, and the wait goes on behind them. -/
theorem waitForLevelChange_replicate (hb : bound ≤ 65535) (h : cnt.toNat + n ≤ bound + o.slack) :
    waitForLevelChange o lvl bound (List.replicate n lvl ++ rest) cnt =
      (waitForLevelChange o lvl bound rest (cnt + BitVec.ofNat 17 n)).map (Prod.map id (· + n)) := by
  induction n generalizing cnt with
  | zero => rw [BitVec.add_zero]; exact Option.map_id_apply.symm
  | succ n ih =>
    have hs := o.slack_le_one
    have hc : (cnt + 1#17).toNat = cnt.toNat + 1 := toNat_succ (by omega)
    have hn : cnt + 1#17 + BitVec.ofNat 17 n = cnt + BitVec.ofNat 17 (n + 1) := by
      rw [BitVec.add_assoc, BitVec.ofNat_add_ofNat, Nat.add_comm]
    rw [List.replicate_succ, List.cons_append, waitForLevelChange_of_cont (ptStep_self_cont o lvl hb (by omega)),
      ih (by omega), hn, Option.map_map, Prod.map_comp_map]
    rfl

/-- A whole wait whose level changes in time gives the number of its leading samples (rules R102 and R109). -/
theorem waitForLevelChange_done (hb : bound ≤ 65535) (hn : n ≤ bound + o.slack) (h : smp ≠ lvl) :
    waitForLevelChange o lvl bound (List.replicate n lvl ++ smp :: rest) 0#17 =
      some (.finished (BitVec.ofNat 17 n), n + 1) := by
  rw [waitForLevelChange_replicate hb (by simpa using hn), waitForLevelChange_of_ne h, BitVec.zero_add]
  simp [Nat.add_comm]

/-- A whole wait whose level stays too long times out on the evaluation behind the bound (rules R102 and R109). -/
theorem waitForLevelChange_timeout (hb : bound ≤ 65535) (hn : bound + o.slack < n) :
    waitForLevelChange o lvl bound (List.replicate n lvl ++ rest) 0#17 =
      some (.timeout (BitVec.ofNat 17 (bound + 1)), bound + o.slack + 1) := by
  have hs := o.slack_le_one
  have hc : (0#17 + BitVec.ofNat 17 (bound + o.slack)).toNat = bound + o.slack := by
    rw [BitVec.zero_add, BitVec.toNat_ofNat]; omega
  obtain ⟨k, rfl⟩ : ∃ k, n = bound + o.slack + (k + 1) := ⟨n - (bound + o.slack) - 1, by omega⟩
  rw [List.replicate_add, List.append_assoc, waitForLevelChange_replicate hb (by simp), List.replicate_succ,
    List.cons_append, waitForLevelChange_of_timeout (ptStep_self_timeout o lvl hb hc)]
  simp [Nat.add_comm]

end wait

/-- Settles O28: the three cases of PT_STEP in the order with slack 0. -/
theorem pulseTimerStep : Obligations.PulseTimerStep := by
  intro smp lvl bound cnt hb hc
  refine ⟨fun h => ptStep_of_ne _ h _ _, ?timeout, ?cont⟩
  case timeout =>
    rintro rfl h
    exact ⟨_, ptStep_self_timeout .incrementThenCheck smp hb (show cnt.toNat = bound + 0 by omega),
      by rw [BitVec.toNat_ofNat]; omega⟩
  case cont =>
    rintro rfl h
    have hn : (cnt + 1#17).toNat = cnt.toNat + 1 := toNat_succ (by omega)
    exact ⟨_, ptStep_self_cont .incrementThenCheck smp hb (show cnt.toNat < bound + 0 by omega),
      hn, by omega, by omega⟩

/-- Settles O29: the whole wait in the order with slack 0. -/
theorem waitCountsSamples : Obligations.WaitCountsSamples := fun _ _ _ _ hb =>
  ⟨fun hn _ h => waitForLevelChange_done hb hn h, fun hn => waitForLevelChange_timeout hb hn⟩

/-- Settles O30: PT_STEP on either side of the level, and the whole wait in the order with slack 1. -/
theorem checkThenIncrementOrder : Obligations.CheckThenIncrementOrder := by
  refine ⟨fun smp lvl bound cnt => ?_, fun _ _ _ _ hb =>
    ⟨fun hn _ h => waitForLevelChange_done hb hn h, fun hn => waitForLevelChange_timeout hb hn⟩⟩
  by_cases h : smp = lvl
  · rw [h, ptStep_chk_self, if_neg (not_not.mpr rfl)]
  · rw [ptStep_of_ne _ h, if_pos h]

theorem exec_tickMeasure (smp : Bit) (s : State) :
    exec (.tickMeasure smp) s = .next (waitTick params smp .measure s) := rfl

/-- Settles O35: the three ways a MEASURE tick can go, the second with CNT written as the 17-bit MTO_S. -/
theorem measureTick : Obligations.MeasureTick := by
  refine ⟨fun s smp hs hc => ?count, fun s smp hs hc => ?timeout, fun s smp hs => ?done⟩ <;> rw [exec_tickMeasure]
  case count =>
    exact congrArg _ (waitTick_count rfl hs (by omega) hc)
  case timeout =>
    have hm : s.cnt = s.mtoS.setWidth 17 :=
      BitVec.eq_of_toNat_eq (by rw [hc, BitVec.toNat_setWidth_of_le (by decide)])
    rw [← hm]
    exact congrArg _ (waitTick_timeout rfl hs (by omega) (Nat.lt_succ_of_le hc.ge))
  case done =>
    exact congrArg _ (waitTick_measure_done hs)

end Machine
end Sys2Proof
end

section
/-! The start sequence: its two driven phases for any build, and runs of ticks through them
(41_start_sequence.md rules R121, R122, R124 and R125). -/

namespace Sys2Proof.Machine

theorem driveTick_eq (d : Nat) (q : Phase) (s : State) :
    driveTick d q s = if (s.cnt + 1#17).toNat = d then { s with phase := q, cnt := 0#17 }
      else { s with cnt := s.cnt + 1#17 } := rfl

/-- A duration that fits CNT may be compared as a count. -/
theorem driveTick_eq_of_lt {d : Nat} (hd : d < 2 ^ 17) (q : Phase) (s : State) :
    driveTick d q s = if s.cnt + 1#17 = BitVec.ofNat 17 d then { s with phase := q, cnt := 0#17 }
      else { s with cnt := s.cnt + 1#17 } := by
  have h : s.cnt + 1#17 = BitVec.ofNat 17 d ↔ (s.cnt + 1#17).toNat = d := by
    rw [← BitVec.toNat_inj, BitVec.toNat_ofNat, Nat.mod_eq_of_lt hd]
  rw [driveTick_eq]
  exact (if_congr h rfl rfl).symm

theorem tick_startLow {p : Params} {s : State} (smp : Bit) (h : s.phase = .startLow) :
    tick p smp s = driveTick p.tStartLow .startHigh s := by simp only [tick, h]

theorem tick_startHigh {p : Params} {s : State} (smp : Bit) (h : s.phase = .startHigh) :
    tick p smp s = driveTick p.tStartHigh .ackLow s := by simp only [tick, h]

theorem exec_tickStartLow (smp : Bit) (s : State) :
    exec (.tickStartLow smp) s = .next (driveTick params.tStartLow .startHigh s) := rfl

theorem exec_tickStartHigh (smp : Bit) (s : State) :
    exec (.tickStartHigh smp) s = .next (driveTick params.tStartHigh .ackLow s) := rfl

/-- Settles O25: each tick is the driven tick of its phase, on the machine with the duration as a count. -/
theorem startSequenceTicks : Obligations.StartSequenceTicks := by
  refine ⟨fun p smp s h => ?low, fun p smp s h => ?high, fun smp s => ?execLow, fun smp s => ?execHigh⟩
  case low => rw [tick_startLow smp h, driveTick_eq]
  case high => rw [tick_startHigh smp h, driveTick_eq]
  case execLow => rw [exec_tickStartLow, driveTick_eq_of_lt (by decide)]; rfl
  case execHigh => rw [exec_tickStartHigh, driveTick_eq_of_lt (by decide)]; rfl

/-- PHASE `r` of build `p` is driven: its ticks ignore the sample and enter `q` after `d` ticks. -/
def Drives (p : Params) (r : Phase) (d : Nat) (q : Phase) : Prop :=
  ∀ (smp : Bit) (s : State), s.phase = r → tick p smp s = driveTick d q s

theorem drives_startLow (p : Params) : Drives p .startLow p.tStartLow .startHigh := fun smp _ => tick_startLow smp

theorem drives_startHigh (p : Params) : Drives p .startHigh p.tStartHigh .ackLow := fun smp _ => tick_startHigh smp

section Drives
variable {p : Params} {r q : Phase} {d n : Nat} {l : List Bit} {s : State}

/-- A tick of a driven phase that does not complete the duration counts. -/
theorem Drives.ticks_cons_count (hr : Drives p r d q) (hd : d ≤ 65535) (hs : s.phase = r) (h : s.cnt.toNat + 1 < d)
    (a : Bit) : ticks p (a :: l) s = ticks p l (s.setCnt (s.cnt + 1#17)) := by
  have hc : (s.cnt + 1#17).toNat = s.cnt.toNat + 1 := toNat_succ (by omega)
  rw [ticks_cons, hr a s hs, driveTick_count (hc.trans_ne h.ne)]

/-- Before the duration is over, the ticks of a driven phase only count. -/
theorem Drives.ticks_count (hr : Drives p r d q) (hd : d ≤ 65535) (hs : s.phase = r)
    (hl : s.cnt.toNat + l.length < d) : ticks p l s = s.setCnt (s.cnt + BitVec.ofNat 17 l.length) := by
  induction l generalizing s with
  | nil => exact (congrArg s.setCnt (BitVec.add_zero s.cnt)).symm
  | cons a l ih =>
    rw [List.length_cons] at hl ⊢
    have hc : (s.setCnt (s.cnt + 1#17)).cnt.toNat = s.cnt.toNat + 1 := toNat_succ (by omega)
    have hn : s.cnt + 1#17 + BitVec.ofNat 17 l.length = s.cnt + BitVec.ofNat 17 (l.length + 1) := by
      rw [BitVec.add_assoc, BitVec.ofNat_add_ofNat, Nat.add_comm]
    rw [hr.ticks_cons_count hd hs (by omega), ih (s := s.setCnt (s.cnt + 1#17)) hs (by omega), State.setCnt_cnt, hn]
    rfl

/-- The ticks that complete the duration enter the next phase, and the run goes on behind them. -/
theorem Drives.ticks_enter (hr : Drives p r d q) (hd : d ≤ 65535) (hs : s.phase = r)
    (hn : s.cnt.toNat + (n + 1) = d) (hl : n + 1 ≤ l.length) :
    ticks p l s = ticks p (l.drop (n + 1)) (s.enter q) := by
  induction n generalizing s l with
  | zero =>
    obtain ⟨a, l, rfl⟩ := List.exists_cons_of_length_pos hl
    have hc : (s.cnt + 1#17).toNat = d := by rw [toNat_succ (by omega)]; omega
    rw [ticks_cons, hr a s hs, driveTick_enter hc]
    rfl
  | succ n ih =>
    obtain ⟨a, l, rfl⟩ := List.exists_cons_of_length_pos (Nat.zero_lt_of_lt hl)
    have hc : (s.setCnt (s.cnt + 1#17)).cnt.toNat = s.cnt.toNat + 1 := toNat_succ (by omega)
    rw [hr.ticks_cons_count hd hs (by omega),
      ih (s := s.setCnt (s.cnt + 1#17)) hs (by omega) (Nat.le_of_succ_le_succ hl)]
    rfl

/-- A driven phase entered with CNT 0 counts its ticks (rule R124). -/
theorem Drives.ticks_of_lt (hr : Drives p r d q) (hd : Params.legal d) (hs : s.phase = r) (hc : s.cnt = 0#17)
    (hl : l.length < d) : ticks p l s = s.setCnt (BitVec.ofNat 17 l.length) := by
  rw [hr.ticks_count hd.2 hs (by simpa [hc] using hl), hc, BitVec.zero_add]

/-- A driven phase entered with CNT 0 ends after exactly its duration (rule R124). -/
theorem Drives.ticks_of_le (hr : Drives p r d q) (hd : Params.legal d) (hs : s.phase = r) (hc : s.cnt = 0#17)
    (hl : d ≤ l.length) : ticks p l s = ticks p (l.drop d) (s.enter q) := by
  obtain ⟨n, rfl⟩ := Nat.exists_eq_add_of_le' hd.1
  exact hr.ticks_enter hd.2 hs (by simp [hc]) hl

end Drives

section afterReadAcceptance
variable {p : Params} (s : State) {l : List Bit}

theorem ticks_acceptRead_low (hlow : Params.legal p.tStartLow) (h : l.length < p.tStartLow) :
    ticks p l s.acceptRead = s.acceptRead.setCnt (BitVec.ofNat 17 l.length) :=
  (drives_startLow p).ticks_of_lt hlow rfl rfl h

/-- Behind the low ticks the run goes on in START_HIGH. -/
theorem ticks_acceptRead_drop (hlow : Params.legal p.tStartLow) (h : p.tStartLow ≤ l.length) :
    ticks p l s.acceptRead = ticks p (l.drop p.tStartLow) (s.acceptRead.enter .startHigh) :=
  (drives_startLow p).ticks_of_le hlow rfl rfl h

theorem ticks_acceptRead_high (hlow : Params.legal p.tStartLow) (hhigh : Params.legal p.tStartHigh)
    (h : p.tStartLow ≤ l.length) (h' : l.length < p.tStartLow + p.tStartHigh) :
    ticks p l s.acceptRead =
      (s.acceptRead.enter .startHigh).setCnt (BitVec.ofNat 17 (l.length - p.tStartLow)) := by
  rw [ticks_acceptRead_drop s hlow h, ← List.length_drop]
  exact (drives_startHigh p).ticks_of_lt hhigh rfl rfl (by rw [List.length_drop]; omega)

theorem ticks_acceptRead_release (hlow : Params.legal p.tStartLow) (hhigh : Params.legal p.tStartHigh)
    (h : l.length = p.tStartLow + p.tStartHigh) : ticks p l s.acceptRead = s.acceptRead.enter .ackLow := by
  have hl : (l.drop p.tStartLow).length = p.tStartHigh := by rw [List.length_drop]; omega
  rw [ticks_acceptRead_drop s hlow (by omega), (drives_startHigh p).ticks_of_le hhigh rfl rfl hl.ge,
    List.drop_of_length_le hl.le]
  rfl

end afterReadAcceptance

/-- Settles O26: the state of each of the three ranges whole, and the line outputs from its PHASE. -/
theorem startSequenceTiming : Obligations.StartSequenceTiming := by
  refine ⟨fun p s l ⟨hlow, hhigh, _⟩ => ⟨fun h => ?low, fun h h' => ?high, fun h => ?release⟩, rfl, rfl⟩
  case low =>
    rw [ticks_acceptRead_low s hlow h]
    exact ⟨rfl, lineOe_eq_one_iff.mpr (.inl rfl), lineOut_eq_zero_iff.mpr (by simp [State.acceptRead])⟩
  case high =>
    rw [ticks_acceptRead_high s hlow hhigh h h']
    exact ⟨rfl, lineOe_eq_one_iff.mpr (.inr rfl), lineOut_eq_one_iff.mpr rfl⟩
  case release =>
    rw [ticks_acceptRead_release s hlow hhigh h]
    have released : lineOe (s.acceptRead.enter .ackLow) = 0#1 := lineOe_eq_zero_iff.mpr (by simp)
    exact ⟨rfl, released, lineOut_of_lineOe_zero released⟩

end Sys2Proof.Machine
end

section
/-! The waits of a READ at their level, tick by tick and over a run, and the chained entry of a wait; the Response
Detector's two ticks (40_pulse_timer.md rules R103 and R104, 42_response_detector.md rules R131 and R132). -/

namespace Sys2Proof.Machine

theorem tick_wait {p : Params} {q : WaitPhase} {s : State} (smp : Bit) (h : s.phase = q.phase) :
    tick p smp s = waitTick p smp q s := by
  cases q <;> simp only [tick, h, WaitPhase.phase]

section atTheLevel
variable {p : Params} {smp : Bit} {q : WaitPhase} {s : State} {n : Nat}

/-- In either order, a sample at the level counts on while the count is below the bound. -/
theorem waitTick_self_count (hl : smp = waitLevel s q) (hb : waitBound p s q ≤ 65535)
    (h : s.cnt.toNat < waitBound p s q + p.slack) : waitTick p smp q s = s.setCnt (s.cnt + 1#17) :=
  evalWait_cont _ (hl ▸ ptStep_self_cont p.order smp hb (p.slack_eq ▸ h))

/-- In either order, a sample at the level times out at the bound. -/
theorem waitTick_self_timeout (hl : smp = waitLevel s q) (hb : waitBound p s q ≤ 65535)
    (h : s.cnt.toNat = waitBound p s q + p.slack) :
    waitTick p smp q s = (s.setCount (BitVec.ofNat 17 (waitBound p s q + 1))).failWait q :=
  evalWait_timeout _ (hl ▸ ptStep_self_timeout p.order smp hb (p.slack_eq ▸ h))

theorem waitLevel_setCnt (s : State) (q : WaitPhase) (c : TickCount) : waitLevel (s.setCnt c) q = waitLevel s q := by
  cases q <;> rfl

theorem waitBound_setCnt (p : Params) (s : State) (q : WaitPhase) (c : TickCount) :
    waitBound p (s.setCnt c) q = waitBound p s q := by
  cases q <;> rfl

/-- A wait of a legal build has a bound that fits MTO_S. -/
theorem waitBound_le (hp : p.wf) (s : State) (q : WaitPhase) : waitBound p s q ≤ 65535 := by
  obtain ⟨-, -, hal, hah, hm, hh, -⟩ := hp
  cases q with
  | ackLow => exact hal.2
  | ackHigh => exact hah.2
  | bitMark => exact hm.2
  | bitHigh => exact hh.2
  | measure => exact Nat.le_of_lt_succ s.mtoS.isLt

/-- Samples at the level behind which the bound is exceeded time out, whatever count the wait begins with. -/
theorem ticks_self_timeout (hq : s.phase = q.phase) (hl : smp = waitLevel s q) (hb : waitBound p s q ≤ 65535)
    (h : s.cnt.toNat + n = waitBound p s q + p.slack) :
    ticks p (List.replicate (n + 1) smp) s = (s.setCount (BitVec.ofNat 17 (waitBound p s q + 1))).failWait q := by
  induction n generalizing s with
  | zero =>
    rw [List.replicate_one, ticks_cons, ticks_nil, tick_wait smp hq, waitTick_self_timeout hl hb h]
  | succ n ih =>
    have hs := p.slack_eq ▸ p.order.slack_le_one
    have hc : (s.setCnt (s.cnt + 1#17)).cnt.toNat = s.cnt.toNat + 1 := toNat_succ (by omega)
    rw [List.replicate_succ, ticks_cons, tick_wait smp hq, waitTick_self_count hl hb (by omega),
      ih (s := s.setCnt (s.cnt + 1#17)) hq (by rwa [waitLevel_setCnt]) (by rwa [waitBound_setCnt])
        (by rw [waitBound_setCnt]; omega), waitBound_setCnt]
    rfl

end atTheLevel

/-- ENTER's edges: the wait whose completing sample is the first evaluation of the next wait (rule R104). -/
inductive Phase.ChainsTo : Phase → Phase → Prop where
  | ackHigh : ChainsTo .ackLow .ackHigh
  | firstMark : ChainsTo .ackHigh .bitMark
  | bitHigh : ChainsTo .bitMark .bitHigh
  | nextMark : ChainsTo .bitHigh .bitMark

theorem Phase.eq_ackLow_of_chainsTo_ackHigh {q : Phase} (h : q.ChainsTo .ackHigh) : q = .ackLow := by cases h; rfl

/-- The three waits that only ENTER starts. -/
def Phase.chained : Phase → Bool
  | .ackHigh | .bitMark | .bitHigh => true
  | _ => false

section entry
variable {p : Params} {smp : Bit} {s t : State}

theorem frameEnd_phase (s : State) : s.frameEnd.phase = .idle := by
  cases h : frameCheck s.shift
  · rw [frameEnd_mismatch h]; rfl
  · rw [frameEnd_valid h]; rfl

/-- A tick that starts a chained wait follows an edge of ENTER, and the chained sample is counted. -/
theorem TickEffect.chained_entry (h : TickEffect p smp s t) (ht : t.phase.chained) (hne : s.phase ≠ t.phase) :
    s.phase.ChainsTo t.phase ∧ t.cnt = 1#17 := by
  cases h with
  | idle | count => exact absurd rfl hne
  | startHigh | release | timeout | measured => cases ht
  | frameEnd => rw [frameEnd_phase] at ht; cases ht
  | ackHigh h => exact ⟨h ▸ .ackHigh, rfl⟩
  | bitMark h => exact ⟨h ▸ .firstMark, rfl⟩
  | bitHigh h => exact ⟨h ▸ .bitHigh, rfl⟩
  | nextBit h => exact ⟨h ▸ .nextMark, rfl⟩

/-- No host operation starts a chained wait. -/
theorem HostEffect.phase_of_chained (h : HostEffect s t) (ht : t.phase.chained) : s.phase = t.phase := by
  cases h with
  | same | reject | config | status | word => rfl
  | read | measure => cases ht

/-- A step that starts a chained wait is a tick along an edge of ENTER, and the chained sample is counted. -/
theorem step_chained_entry (h : step s = .next t) (ht : t.phase.chained) (hne : s.phase ≠ t.phase) :
    s.phase.ChainsTo t.phase ∧ t.cnt = 1#17 := by
  obtain ⟨-, rfl⟩ | ⟨smp, es, -, rfl⟩ | ⟨-, es, -, -, -, he⟩ | ⟨es, -, rfl⟩ | ⟨smp, es, -, rfl⟩ := step_cases h
  · exact (tick_effect _ s.countDraw (by decide) (by decide) (by decide)).chained_entry ht hne
  · exact (tick_effect smp (s.setInputs es) (by decide) (by decide) (by decide)).chained_entry ht hne
  · exact absurd (he.phase_of_chained ht) hne
  · cases ht
  · refine absurd ?_ hne
    rcases clockEdge_cases params smp (s.setInputs es) with e | e <;> rw [e] <;> rfl

end entry

theorem params_wf : params.wf := by decide

theorem exec_tickAckLow (smp : Bit) (s : State) :
    exec (.tickAckLow smp) s = .next (waitTick params smp .ackLow s) := rfl

theorem exec_tickAckHigh (smp : Bit) (s : State) :
    exec (.tickAckHigh smp) s = .next (waitTick params smp .ackHigh s) := rfl

/-- Settles O31: the three ways an ACK_LOW tick can go, and the whole wait on zeros as the wait that times out. -/
theorem ackLowTick : Obligations.AckLowTick := by
  have hb (s : State) := waitBound_le params_wf s .ackLow
  refine ⟨fun s h => ?count, fun s h => ?timeout, fun s => ?done, fun s hs hc => ?run⟩
  case count =>
    rw [exec_tickAckLow]
    exact congrArg _ (waitTick_self_count rfl (hb s) h)
  case timeout =>
    rw [exec_tickAckLow]
    exact congrArg _ (waitTick_self_timeout rfl (hb s) (congrArg BitVec.toNat h))
  case done =>
    rw [exec_tickAckLow]
    exact congrArg _ (waitTick_ackLow_done (by decide))
  case run =>
    exact ticks_self_timeout hs rfl (hb s) (congrArg (·.toNat + 80) hc)

/-- Settles O32: the three ways an ACK_HIGH tick can go, and the one edge of ENTER that leads to ACK_HIGH. -/
theorem ackHighTick : Obligations.AckHighTick := by
  have hb (s : State) := waitBound_le params_wf s .ackHigh
  refine ⟨fun s h => ?count, fun s h => ?timeout, fun s => ?done, fun s t h hs ht => ?entry⟩
  case count =>
    rw [exec_tickAckHigh]
    exact congrArg _ (waitTick_self_count rfl (hb s) h)
  case timeout =>
    rw [exec_tickAckHigh]
    exact congrArg _ (waitTick_self_timeout rfl (hb s) (congrArg BitVec.toNat h))
  case done =>
    rw [exec_tickAckHigh]
    exact congrArg _ (waitTick_ackHigh_done (by decide))
  case entry =>
    obtain ⟨hc, hcnt⟩ := step_chained_entry h (ht ▸ rfl) (fun e => hs (e.trans ht))
    exact ⟨Phase.eq_ackLow_of_chainsTo_ackHigh (ht ▸ hc), hcnt⟩

end Sys2Proof.Machine
end

section
/-! The Frame Sampler: the bit value and its place in the frame, the snapshots of a running command, and the ticks of
BIT_MARK and BIT_HIGH (43_frame_sampler.md rules R141 to R144, 44_checksum_validator.md rule R161). -/

namespace Sys2Proof.Machine

/-! The place of a bit. -/

/-- What a frame holds at each position after a bit is written (rule R144). -/
theorem getLsbD_placeBit (f : FrameBits) {i : BitVec 6} (b : Bit) (hi : i.toNat < 40) (j : Nat) :
    (placeBit f i b).getLsbD j = if j = 39 - i.toNat then b.getLsbD 0 else f.getLsbD j := by
  simp only [placeBit, if_pos hi, BitVec.getLsbD_or, BitVec.getLsbD_and, BitVec.getLsbD_not, BitVec.getLsbD_shiftLeft,
    BitVec.getLsbD_setWidth, BitVec.getLsbD_one]
  by_cases hj : j < 40
  · obtain h | rfl | h := Nat.lt_trichotomy j (39 - i.toNat)
    · rw [if_neg h.ne]
      simp [hj, h]
    · simp [hj]
    · have hb : b.getLsbD (j - (39 - i.toNat)) = false := BitVec.getLsbD_of_ge _ _ (by omega)
      rw [if_neg h.ne', hb]
      simp [hj, Nat.sub_ne_zero_of_lt h]
  · rw [if_neg (by omega), BitVec.getLsbD_of_ge f j (by omega)]
    simp [hj]

theorem getLsbD_frameByte (f : FrameBits) (k : Nat) {m : Nat} (hm : m < 8) :
    (frameByte f k).getLsbD m = f.getLsbD (32 - 8 * k + m) := by
  simp [frameByte, hm]

theorem getLsbD_zero_of_bit (b : Bit) : b.getLsbD 0 = (b == 1#1) := by revert b; decide

/-- Settles O39: the written position, the same position named through its frame byte, and every other position. -/
theorem bitPlacement : Obligations.BitPlacement := by
  intro f i b hi
  have written : (placeBit f i b).getLsbD (39 - i.toNat) = (b == 1#1) := by
    rw [getLsbD_placeBit f b hi, if_pos rfl, getLsbD_zero_of_bit]
  refine ⟨written, ?inByte, fun j hj => ?other⟩
  case inByte =>
    have hpos : 32 - 8 * (i.toNat / 8) + (7 - i.toNat % 8) = 39 - i.toNat := by omega
    rw [getLsbD_frameByte _ _ (by omega), hpos, written]
  case other => rw [getLsbD_placeBit f b hi, if_neg hj]

/-! The bit value and the snapshots. -/

section bitOf
variable {thr : Byte} {c : TickCount}

theorem bitOf_eq_one_iff : bitOf thr c = 1#1 ↔ thr.toNat < c.toNat := by simp [bitOf]

theorem bitOf_eq_zero_iff : bitOf thr c = 0#1 ↔ c.toNat ≤ thr.toNat := by simp [bitOf]

end bitOf

/-- A longer pulse never gives the smaller bit (rule R149). -/
theorem bitOf_mono (thr : Byte) {c c' : TickCount} (h : c.toNat ≤ c'.toNat) :
    (bitOf thr c).toNat ≤ (bitOf thr c').toNat := by
  by_cases hc : thr.toNat < c.toNat
  · rw [bitOf_eq_one_iff.mpr hc, bitOf_eq_one_iff.mpr (hc.trans_le h)]
  · rw [bitOf_eq_zero_iff.mpr (not_lt.mp hc)]
    exact Nat.zero_le _

/-- The three snapshots an acceptance takes of CONFIG (10_state.md rule R31). -/
def State.snapshots (s : State) : Byte × Bit × BitVec 16 := (s.thrS, s.mlvlS, s.mtoS)

theorem frameEnd_snapshots (s : State) : s.frameEnd.snapshots = s.snapshots := by
  cases h : frameCheck s.shift
  · rw [frameEnd_mismatch h]; rfl
  · rw [frameEnd_valid h]; rfl

section snapshots
variable {p : Params} {smp : Bit} {s t : State}

theorem TickEffect.snapshots_eq (h : TickEffect p smp s t) : t.snapshots = s.snapshots := by
  cases h with
  | frameEnd => rw [frameEnd_snapshots]; rfl
  | idle | count | startHigh | release | timeout | ackHigh | bitMark | bitHigh | nextBit | measured => rfl

/-- Only an acceptance takes snapshots, and there is none while a command runs. -/
theorem HostEffect.snapshots_eq (h : HostEffect s t) (hs : s.phase ≠ .idle) : t.snapshots = s.snapshots := by
  cases h with
  | read hi | measure hi => exact absurd hi hs
  | same | reject | config | status | word => rfl

/-- No step of a running command but a reset changes a snapshot (10_state.md rule R31). -/
theorem step_snapshots_eq (h : step s = .next t) (hs : s.phase ≠ .idle) (hr : Safety.nextIsReset s = false) :
    t.snapshots = s.snapshots := by
  obtain ⟨-, rfl⟩ | ⟨smp, es, -, rfl⟩ | ⟨-, es, -, -, -, he⟩ | ⟨es, hi, rfl⟩ | ⟨smp, es, -, rfl⟩ := step_cases h
  · exact (tick_effect _ s.countDraw (by decide) (by decide) (by decide)).snapshots_eq
  · exact (tick_effect smp (s.setInputs es) (by decide) (by decide) (by decide)).snapshots_eq
  · exact he.snapshots_eq hs
  · simp [Safety.nextIsReset, hi] at hr
  · rcases clockEdge_cases params smp (s.setInputs es) with e | e <;> rw [e] <;> rfl

end snapshots

/-- Settles O38: the values of `bitOf` from its comparison, and the snapshots by the inversion of `step`. -/
theorem bitValue : Obligations.BitValue := by
  refine ⟨fun _ _ => bitOf_eq_one_iff, fun _ hc => bitOf_eq_zero_iff.mpr hc, fun _ hc _ => bitOf_eq_one_iff.mpr hc,
    fun _ _ ht hc => bitOf_eq_zero_iff.mpr (hc.trans ht), fun thr _ _ => bitOf_mono thr, fun s t h hs hr => ?_⟩
  have hsnap : (t.thrS, t.mlvlS, t.mtoS) = (s.thrS, s.mlvlS, s.mtoS) := step_snapshots_eq h hs hr
  simpa only [Prod.mk.injEq] using hsnap

/-! The two ticks. -/

theorem exec_tickBitMark (smp : Bit) (s : State) :
    exec (.tickBitMark smp) s = .next (waitTick params smp .bitMark s) := rfl

theorem exec_tickBitHigh (smp : Bit) (s : State) :
    exec (.tickBitHigh smp) s = .next (waitTick params smp .bitHigh s) := rfl

theorem Phase.eq_of_chainsTo_bitMark {q : Phase} (h : q.ChainsTo .bitMark) : q = .ackHigh ∨ q = .bitHigh := by
  cases h with
  | firstMark => exact .inl rfl
  | nextMark => exact .inr rfl

theorem Phase.eq_bitMark_of_chainsTo_bitHigh {q : Phase} (h : q.ChainsTo .bitHigh) : q = .bitMark := by cases h; rfl

/-- Settles O33: the three ways a BIT_MARK tick can go, and the two edges of ENTER that lead to BIT_MARK. -/
theorem bitMarkTick : Obligations.BitMarkTick := by
  have hb (s : State) := waitBound_le params_wf s .bitMark
  refine ⟨fun s h => ?count, fun s h => ?timeout, fun s => ?done, fun s t h hs ht => ?entry⟩
  case count =>
    rw [exec_tickBitMark]
    exact congrArg _ (waitTick_self_count rfl (hb s) h)
  case timeout =>
    rw [exec_tickBitMark]
    exact congrArg _ (waitTick_self_timeout rfl (hb s) (congrArg BitVec.toNat h))
  case done =>
    rw [exec_tickBitMark]
    exact congrArg _ (waitTick_bitMark_done (by decide))
  case entry =>
    obtain ⟨hc, hcnt⟩ := step_chained_entry h (ht ▸ rfl) (fun e => hs (e.trans ht))
    exact ⟨Phase.eq_of_chainsTo_bitMark (ht ▸ hc), hcnt⟩

/-- Settles O34: the two ways a BIT_HIGH tick on a 1 can go, the two on a 0, and the one edge of ENTER that leads to
BIT_HIGH. -/
theorem bitHighTick : Obligations.BitHighTick := by
  have hb (s : State) := waitBound_le params_wf s .bitHigh
  refine ⟨fun s h => ?count, fun s h => ?timeout, fun s h => ?nextBit, fun s f h hf => ?lastBit,
    fun s t h hs ht => ?entry⟩
  case count =>
    rw [exec_tickBitHigh]
    exact congrArg _ (waitTick_self_count rfl (hb s) h)
  case timeout =>
    rw [exec_tickBitHigh]
    exact congrArg _ (waitTick_self_timeout rfl (hb s) (congrArg BitVec.toNat h))
  case nextBit =>
    have hn : (s.bitidx + 1#6).toNat ≠ params.nbits := by
      rw [BitVec.toNat_add]
      exact Nat.ne_of_lt (show (s.bitidx.toNat + 1) % 64 < 40 by omega)
    rw [exec_tickBitHigh]
    exact congrArg _ (waitTick_bitHigh_done (by decide) hn)
  case lastBit =>
    have hi : s.bitidx + 1#6 = 40#6 := by rw [h]; rfl
    have hstore : (s.setCount s.cnt).storeBit (bitOf s.thrS s.cnt) =
        { s with count := s.cnt, shift := f, bitidx := 40#6 } := by
      rw [hf, ← h, ← hi]; rfl
    rw [exec_tickBitHigh, waitTick_bitHigh_last (congrArg BitVec.toNat hi), hstore]
    rfl
  case entry =>
    obtain ⟨hc, hcnt⟩ := step_chained_entry h (ht ▸ rfl) (fun e => hs (e.trans ht))
    exact ⟨Phase.eq_bitMark_of_chainsTo_bitHigh (ht ▸ hc), hcnt⟩

end Sys2Proof.Machine
end

section
/-! The Checksum Validator: SUM and CHECK as arithmetic, their place in RAW1, and the one step that changes DATA
(44_checksum_validator.md rules R160, R162 and R163). -/

namespace Sys2Proof.Machine

/-! SUM and CHECK by arithmetic. -/

theorem toNat_frameByte (f : FrameBits) (k : Nat) : (frameByte f k).toNat = f.toNat / 2 ^ (32 - 8 * k) % 256 := by
  rw [frameByte, BitVec.extractLsb'_toNat, Nat.shiftRight_eq_div_pow]

theorem frameCheck_iff (f : FrameBits) : frameCheck f = true ↔ (frameSum f).toNat = f.toNat % 256 := by
  have low : (frameByte f 4).toNat = f.toNat % 256 := by rw [toNat_frameByte, Nat.pow_zero, Nat.div_one]
  rw [frameCheck, beq_iff_eq, ← BitVec.toNat_inj, low]

/-- Settles O40: each frame byte is a quotient of the frame modulo 256, and the sum is kept modulo 256. -/
theorem checksumOfFrame : Obligations.ChecksumOfFrame := by
  refine fun f => ⟨?sum, frameCheck_iff f⟩
  case sum =>
    rw [frameSum, BitVec.toNat_ofNat]
    simp only [toNat_frameByte]

/-! RAW1's fields (30_encoding.md rule R78). -/

section raw1
variable (s : State)

theorem raw1Word_sum : (raw1Word s).extractLsb' 8 8 = frameSum s.shift := by
  rw [raw1Word, extract_append_high _ _ _ (by decide), extract_append_low _ _ _ (by decide), extract_all]

theorem raw1Word_match : (raw1Word s).extractLsb' 16 1 = BitVec.ofBool (frameCheck s.shift) := by
  rw [raw1Word, extract_append_high _ _ _ (by decide), extract_append_high _ _ _ (by decide),
    extract_append_low _ _ _ (by decide), extract_all]

theorem raw1Word_byte : (raw1Word s).extractLsb' 0 8 = frameByte s.shift 4 := by
  rw [raw1Word, extract_append_low _ _ _ (by decide), extract_all]

end raw1

/-- Settles O42: the three fields by the layout of RAW1, which reads no other part of the state than SHIFT. -/
theorem checksumViewFollowsShift : Obligations.ChecksumViewFollowsShift := fun s =>
  ⟨raw1Word_sum s, raw1Word_match s, raw1Word_byte s, fun t h => by rw [raw1Word, raw1Word, h]⟩

/-! The one writer of DATA. -/

section nextTick
variable {s : State}

theorem nextTick_of_nil (h : s.inputs = []) : Safety.nextTick s = some (Config.freeSample s.draws) := by
  simp only [Safety.nextTick, h]

theorem nextTick_of_tick {smp : Bit} {es : List Event} (h : s.inputs = .tick smp :: es) :
    Safety.nextTick s = some smp := by
  simp only [Safety.nextTick, h]

end nextTick

/-- The state in which a READ ends VALID: SHIFT passes the checksum and is committed whole (rules R161 and R162). -/
def EndsValid (t : State) : Prop :=
  ∃ u : State, frameCheck u.shift = true ∧ t = u.commitData.endCommand .valid 0#3

section data
variable {p : Params} {smp : Bit} {s t : State}

/-- FRAME_END changes DATA only by ending the READ VALID. -/
theorem endsValid_of_frameEnd_data_ne (hd : s.frameEnd.data ≠ s.data) : EndsValid s.frameEnd := by
  cases hc : frameCheck s.shift with
  | false =>
    rw [frameEnd_mismatch hc] at hd
    exact absurd rfl hd
  | true => exact ⟨s, hc, frameEnd_valid hc⟩

/-- A tick changes DATA only at a frame end, on the 0 that ends bit 39's pulse. -/
theorem TickEffect.endsValid_of_data_ne (h : TickEffect p smp s t) (hd : t.data ≠ s.data) :
    s.phase = .bitHigh ∧ smp = 0#1 ∧ EndsValid t := by
  cases h with
  | frameEnd h hs => exact ⟨h, hs, endsValid_of_frameEnd_data_ne hd⟩
  | idle | count | startHigh | release | timeout | ackHigh | bitMark | bitHigh | nextBit | measured =>
    exact absurd rfl hd

theorem HostEffect.data_eq (h : HostEffect s t) : t.data = s.data := by
  cases h with
  | same | read | measure | reject | config | status | word => rfl

/-- No step but a reset changes DATA other than by ending a READ VALID (rule R162). -/
theorem step_endsValid_of_data_ne (h : step s = .next t) (hr : Safety.nextIsReset s = false) (hd : t.data ≠ s.data) :
    s.phase = .bitHigh ∧ Safety.nextTick s = some 0#1 ∧ EndsValid t := by
  obtain ⟨hi, rfl⟩ | ⟨smp, es, hi, rfl⟩ | ⟨-, es, -, -, -, he⟩ | ⟨es, hi, rfl⟩ | ⟨smp, es, -, rfl⟩ := step_cases h
  · obtain ⟨hph, hs, hv⟩ :=
      (tick_effect _ s.countDraw (by decide) (by decide) (by decide)).endsValid_of_data_ne hd
    exact ⟨hph, hs ▸ nextTick_of_nil hi, hv⟩
  · obtain ⟨hph, rfl, hv⟩ :=
      (tick_effect smp (s.setInputs es) (by decide) (by decide) (by decide)).endsValid_of_data_ne hd
    exact ⟨hph, nextTick_of_tick hi, hv⟩
  · exact absurd he.data_eq hd
  · simp [Safety.nextIsReset, hi] at hr
  · refine absurd ?_ hd
    rcases clockEdge_cases params smp (s.setInputs es) with e | e <;> rw [e] <;> rfl

end data

/-- Settles O43: the inversion of `step` leaves only the VALID end of a READ, whose fields are those of `endCommand`
behind `commitData`. -/
theorem dataChangesOnlyAtAValidFrameEnd : Obligations.DataChangesOnlyAtAValidFrameEnd := by
  intro s t h hr hd
  obtain ⟨hph, htick, u, hu, rfl⟩ := step_endsValid_of_data_ne h hr hd
  exact ⟨hph, htick, rfl, rfl, rfl, rfl, hu⟩

end Sys2Proof.Machine
end

section
/-! What a tick leaves to the host: it neither reads nor changes CONFIG, CMDERR, TICKGEN, the word returned and the
outside world's events (10_state.md rules R29 to R31). The dispatch of a tick (45_host_interface.md rule R187). -/

namespace Sys2Proof.Machine

/-- `s` with the host's side of the block, and the outside world, as in `h`: every field that no tick rule names. -/
def State.withHost (s h : State) : State :=
  { s with
    thresh := h.thresh, ie := h.ie, mlevel := h.mlevel, mtimeout := h.mtimeout, cmderr := h.cmderr,
    tickgen := h.tickgen, rdata := h.rdata, inputs := h.inputs, draws := h.draws }

section withHost
variable (p : Params) (smp : Bit) (s h : State)

theorem frameEnd_withHost : (s.withHost h).frameEnd = s.frameEnd.withHost h := by
  cases hc : frameCheck s.shift
  · rw [frameEnd_mismatch hc]; exact frameEnd_mismatch (s := s.withHost h) hc
  · rw [frameEnd_valid hc]; exact frameEnd_valid (s := s.withHost h) hc

theorem driveTick_withHost (d : Nat) (q : Phase) : driveTick d q (s.withHost h) = (driveTick d q s).withHost h := by
  rw [driveTick_eq, driveTick_eq, apply_ite (State.withHost · h)]
  rfl

theorem evalWait_withHost {k : WaitPhase → State → State} (hk : ∀ q u, k q (u.withHost h) = (k q u).withHost h)
    (q : WaitPhase) : evalWait p smp k q (s.withHost h) = (evalWait p smp k q s).withHost h := by
  have hl : waitLevel (s.withHost h) q = waitLevel s q := by cases q <;> rfl
  have hb : waitBound p (s.withHost h) q = waitBound p s q := by cases q <;> rfl
  have hc : (s.withHost h).cnt = s.cnt := rfl
  match hr : ptStep p.order smp (waitLevel s q) (waitBound p s q) s.cnt with
  | .cont c => rw [evalWait_cont k hr, evalWait_cont k (by rwa [hl, hb, hc])]; rfl
  | .timeout c => rw [evalWait_timeout k hr, evalWait_timeout k (by rwa [hl, hb, hc])]; rfl
  | .finished c =>
    simp only [evalWait, hl, hb, hc, hr]
    cases q with
    | ackLow | ackHigh | bitMark => exact hk _ (s.setCount c)
    | bitHigh =>
      rw [apply_ite (State.withHost · h), ← frameEnd_withHost, ← hk]
      rfl
    | measure => rfl

theorem waitTick_withHost (q : WaitPhase) : waitTick p smp q (s.withHost h) = (waitTick p smp q s).withHost h :=
  evalWait_withHost p smp s h
    (fun q u => evalWait_withHost p smp (u.enter q.phase) h (fun _ _ => rfl) q) q

theorem tick_withHost : tick p smp (s.withHost h) = (tick p smp s).withHost h := by
  have hp : (s.withHost h).phase = s.phase := rfl
  simp only [tick, hp]
  cases s.phase with
  | idle => rfl
  | startLow | startHigh => exact driveTick_withHost s h _ _
  | ackLow | ackHigh | bitMark | bitHigh | measure => exact waitTick_withHost p smp s h _

theorem ticks_withHost (l : List Bit) : ticks p l (s.withHost h) = (ticks p l s).withHost h := by
  induction l generalizing s with
  | nil => rfl
  | cons a l ih => rw [ticks_cons, ticks_cons, tick_withHost, ih]

/-- The host's fields behind a tick are those before it. -/
theorem tick_eq_withHost : tick p smp s = (tick p smp s).withHost s := tick_withHost p smp s s

theorem tick_ie : (tick p smp s).ie = s.ie := by rw [tick_eq_withHost]; rfl

theorem tick_cmderr : (tick p smp s).cmderr = s.cmderr := by rw [tick_eq_withHost]; rfl

theorem tick_inputs : (tick p smp s).inputs = s.inputs := by rw [tick_eq_withHost]; rfl

/-- Other values in CONFIG change no run of ticks but for those fields (70_reset_and_hazards.md rule R236). -/
theorem ticks_setConfig (l : List Bit) (mtimeout : BitVec 16) (mlevel ie : Bit) (thresh : Byte) :
    ticks p l (s.setConfig mtimeout mlevel ie thresh) = (ticks p l s).setConfig mtimeout mlevel ie thresh := by
  have frame : (ticks p l s).withHost s = ticks p l s := (ticks_withHost p s s l).symm
  calc ticks p l (s.setConfig mtimeout mlevel ie thresh)
    _ = (ticks p l s).withHost (s.setConfig mtimeout mlevel ie thresh) :=
        ticks_withHost p s (s.setConfig mtimeout mlevel ie thresh) l
    _ = ((ticks p l s).withHost s).setConfig mtimeout mlevel ie thresh := rfl
    _ = (ticks p l s).setConfig mtimeout mlevel ie thresh := by rw [frame]

end withHost

section waitingTick
variable {s t : State} {smp : Bit} {es : List Event}

/-- Behind a tick the next event is the one that stood behind it. -/
theorem inputs_of_step_tick (hi : s.inputs = .tick smp :: es) (h : step s = .next t) : t.inputs = es := by
  rw [step_tick hi] at h
  cases h
  exact tick_inputs params smp (s.setInputs es)

/-- The instruction of a waiting tick is the one that the code of PHASE decodes to. -/
theorem step_tick_decode {q : Phase} (hi : s.inputs = .tick smp :: es) (hq : s.phase = q) :
    step s = exec (decodeTick q.code smp) (s.setInputs es) := by
  subst hq
  simp only [step, fetch, hi, decode]

end waitingTick

/-- Settles O8: the code of each phase decodes to the instruction of its tick rule. -/
theorem tickRunsTheRuleOfItsPhase : Obligations.TickRunsTheRuleOfItsPhase := fun _ _ _ hi =>
  ⟨step_tick_decode hi, step_tick_decode hi, step_tick_decode hi, step_tick_decode hi, step_tick_decode hi,
    step_tick_decode hi, step_tick_decode hi, step_tick_decode hi⟩

/-- Settles O24: the meaning of TICK_IDLE is the state itself. -/
theorem idleTickChangesNothing : Obligations.IdleTickChangesNothing := fun _ _ => rfl

end Sys2Proof.Machine
end

section
/-! Host reads (45_host_interface.md rules R179 to R185): the word of each register, and the step of a read. -/

namespace Sys2Proof.Machine

theorem statusWord_of_idle {s : State} (h : s.phase = .idle) :
    statusWord s = 0#10 ++ s.bitidx ++ 0#1 ++ s.errphase ++ 0#1 ++ 0#3 ++ 0#1 ++ s.result.code ++ 0#1 ++
      s.cmderr ++ s.done ++ 0#1 := by
  rw [statusWord, busy, h]; rfl

/-- Settles O12: each read returns its register's word, and the two STATUS values are those of their fields. -/
theorem controlRegisterReads : Obligations.ControlRegisterReads := by
  refine ⟨fun _ _ _ => rfl, fun _ _ _ => rfl, fun _ _ _ => rfl, reset_configWord,
    fun s hp hb he hr hc hd => ?valid, fun s hp hb he hr hc hd => ?timeout⟩
  case valid => rw [statusWord_of_idle hp, hb, he, hr, hc, hd]; rfl
  case timeout => rw [statusWord_of_idle hp, hb, he, hr, hc, hd]; rfl

theorem countWord_eq_setWidth (s : State) : countWord s = s.count.setWidth 32 :=
  (BitVec.setWidth_eq_append (by decide)).symm

theorem data1Word_eq_setWidth (s : State) : data1Word s = (s.data.extractLsb' 0 8).setWidth 32 :=
  (BitVec.setWidth_eq_append (by decide)).symm

theorem exec_rdCount (lo : BitVec 2) (ign : Word) (s : State) :
    exec (.rdCount lo ign) s = .next (s.setRdata (countWord s)) := rfl

theorem exec_rdData1 (lo : BitVec 2) (ign : Word) (s : State) :
    exec (.rdData1 lo ign) s = .next (s.setRdata (data1Word s)) := rfl

/-- Settles O13: each read returns its register's word; the two zero-extensions are the words' zero fields. -/
theorem datapathRegisterReads : Obligations.DatapathRegisterReads := by
  refine ⟨fun lo ign s => ?count, fun _ _ _ => rfl, fun lo ign s => ?data1, fun _ _ _ => rfl, fun _ _ _ => rfl⟩
  case count => rw [exec_rdCount, countWord_eq_setWidth]; rfl
  case data1 => rw [exec_rdData1, data1Word_eq_setWidth]; rfl

/-- The step of a 32-bit read. -/
theorem step_read {s : State} {a : Access} {es : List Event} (hi : s.inputs = .access a :: es)
    (hw : a.width = 32) (hwe : a.we = 0#1) :
    step s = .next ((s.setInputs es).setRdata (registerWord s (a.off.extractLsb' 2 3))) := by
  have hd : decodeBus a.word = decodeRead (a.off.extractLsb' 2 3) (a.off.extractLsb' 0 2) a.wdata := by
    simp [decodeBus, hwe]
  rw [step_access hi hw, hd, exec_decodeRead]
  rfl

/-- Settles O11: a read's step returns the register's word in any state whose next event it is, the state behind a tick
among them; no word is composed from `rdata` or the events. -/
theorem hostReadReturnsItsRegister : Obligations.HostReadReturnsItsRegister := by
  refine ⟨fun s off es => ⟨step_read (s := { s with inputs := .access (hostRead off) :: es }) rfl rfl rfl,
    fun _ _ _ => rfl⟩,
    fun s t smp off es hi h => step_read (inputs_of_step_tick hi h) rfl rfl⟩

end Sys2Proof.Machine
end

section
/-! Host writes (45_host_interface.md rules R170 to R178): what a write makes of the state by its register, and the
commands by CODE and PHASE. -/

namespace Sys2Proof.Machine

/-- What a CMD write makes of the state, by its CODE (rule R171). -/
def State.command (s : State) (c : Code) : State :=
  if c = 0#3 then s
  else if c = 1#3 ∧ s.phase = .idle then s.acceptRead
  else if c = 2#3 ∧ s.phase = .idle then s.acceptMeasure
  else s.reject

/-- What a write of `v` to the register `sel` makes of the state (rule R170). -/
def State.writeReg (s : State) (sel : BitVec 3) (v : Word) : State :=
  if sel = 0#3 then s.command (v.extractLsb' 0 3)
  else if sel = 1#3 then
    s.setConfig (v.extractLsb' 16 16) (v.extractLsb' 9 1) (v.extractLsb' 8 1) (v.extractLsb' 0 8)
  else if sel = 2#3 then s.clearFlags (v.extractLsb' 2 1) (v.extractLsb' 1 1)
  else s

section commands
variable (s : State)

theorem exec_read (lo : BitVec 2) (ign : BitVec 29) :
    exec (.read lo ign) s = .next (if s.phase = .idle then s.acceptRead else s.reject) := rfl

theorem exec_measure (lo : BitVec 2) (ign : BitVec 29) :
    exec (.measure lo ign) s = .next (if s.phase = .idle then s.acceptMeasure else s.reject) := rfl

theorem command_read_of_idle (h : s.phase = .idle) : s.command 1#3 = s.acceptRead := by simp [State.command, h]

/-- What a command can make of the state. -/
theorem command_cases (c : Code) :
    s.command c = s ∨ s.command c = s.reject ∨ (s.phase = .idle ∧ c = 1#3 ∧ s.command c = s.acceptRead) ∨
      (s.phase = .idle ∧ c = 2#3 ∧ s.command c = s.acceptMeasure) := by
  unfold State.command
  split_ifs with _ hr hm
  · exact .inl rfl
  · exact .inr (.inr (.inl ⟨hr.2, hr.1, rfl⟩))
  · exact .inr (.inr (.inr ⟨hm.2, hm.1, rfl⟩))
  · exact .inr (.inl rfl)

theorem exec_decodeCommand (lo : BitVec 2) (v : Word) :
    exec (decodeCommand lo v) s = .next (s.command (v.extractLsb' 0 3)) := by
  simp only [decodeCommand, State.command]
  split
  · rfl
  split
  · next hc => simp [hc, exec_read]
  split
  · next hc => simp [hc, exec_measure]
  · next h1 h2 =>
    rw [if_neg (mt And.left h1), if_neg (mt And.left h2)]
    split <;> rfl

end commands

section registers
variable (s : State) {sel : BitVec 3} (v : Word)

theorem exec_decodeWrite (sel : BitVec 3) (lo : BitVec 2) :
    exec (decodeWrite sel lo v) s = .next (s.writeReg sel v) := by
  simp only [decodeWrite, State.writeReg]
  split_ifs
  · exact exec_decodeCommand s lo v
  all_goals rfl

/-- The registers from COUNT on are read-only (rule R178). -/
theorem writeReg_readOnly (h : 3 ≤ sel.toNat) : s.writeReg sel v = s := by
  have ne {k : BitVec 3} (hk : k.toNat < 3) : sel ≠ k := by rintro rfl; omega
  rw [State.writeReg, if_neg (ne (by decide)), if_neg (ne (by decide)), if_neg (ne (by decide))]

theorem sel_cases (sel : BitVec 3) : sel = 0#3 ∨ sel = 1#3 ∨ sel = 2#3 ∨ 3 ≤ sel.toNat := by
  revert sel; decide

/-- Only a CONFIG write moves IE. -/
theorem writeReg_ie : (s.writeReg sel v).ie = if sel = 1#3 then v.extractLsb' 8 1 else s.ie := by
  obtain rfl | rfl | rfl | h := sel_cases sel
  · show (s.command _).ie = s.ie
    obtain e | e | ⟨-, -, e⟩ | ⟨-, -, e⟩ := command_cases s (v.extractLsb' 0 3) <;> rw [e] <;> rfl
  · rfl
  · rfl
  · have h1 : sel ≠ 1#3 := by rintro rfl; exact absurd h (by decide)
    rw [writeReg_readOnly s v h, if_neg h1]

/-- DONE is cleared by a STATUS write with bit 1 set or an acceptance, and no write changes it otherwise. -/
theorem writeReg_done :
    (s.writeReg sel v).done = s.done ∨ (s.writeReg sel v).done = 0#1 ∧
      (sel = 2#3 ∧ v.extractLsb' 1 1 = 1#1 ∨
        sel = 0#3 ∧ s.phase = .idle ∧ (v.extractLsb' 0 3 = 1#3 ∨ v.extractLsb' 0 3 = 2#3)) := by
  obtain rfl | rfl | rfl | h := sel_cases sel
  · have hw : s.writeReg 0#3 v = s.command (v.extractLsb' 0 3) := rfl
    obtain e | e | ⟨hi, hc, e⟩ | ⟨hi, hc, e⟩ := command_cases s (v.extractLsb' 0 3) <;> rw [hw, e]
    · exact .inl rfl
    · exact .inl rfl
    · exact .inr ⟨rfl, .inr ⟨rfl, hi, .inl hc⟩⟩
    · exact .inr ⟨rfl, .inr ⟨rfl, hi, .inr hc⟩⟩
  · exact .inl rfl
  · by_cases hv : v.extractLsb' 1 1 = 1#1
    · exact .inr ⟨if_pos hv, .inl ⟨rfl, hv⟩⟩
    · exact .inl (if_neg hv)
  · rw [writeReg_readOnly s v h]; exact .inl rfl

/-- CMDERR = 1 stays but for a STATUS write with bit 2 set (rule R175). -/
theorem writeReg_cmderr (hs : s.cmderr = 1#1) :
    (s.writeReg sel v).cmderr = 1#1 ∨ sel = 2#3 ∧ v.extractLsb' 2 1 = 1#1 := by
  obtain rfl | rfl | rfl | h := sel_cases sel
  · refine .inl (show (s.command _).cmderr = 1#1 from ?_)
    obtain e | e | ⟨-, -, e⟩ | ⟨-, -, e⟩ := command_cases s (v.extractLsb' 0 3) <;> rw [e]
    · exact hs
    · rfl
    · exact hs
    · exact hs
  · exact .inl hs
  · by_cases hv : v.extractLsb' 2 1 = 1#1
    · exact .inr ⟨rfl, hv⟩
    · exact .inl ((if_neg hv).trans hs)
  · rw [writeReg_readOnly s v h]; exact .inl hs

end registers

/-- The step of a 32-bit write. -/
theorem step_write {s : State} {a : Access} {es : List Event} (hi : s.inputs = .access a :: es) (hw : a.width = 32)
    (hwe : a.we = 1#1) : step s = .next ((s.setInputs es).writeReg (a.off.extractLsb' 2 3) a.wdata) := by
  have hd : decodeBus a.word = decodeWrite (a.off.extractLsb' 2 3) (a.off.extractLsb' 0 2) a.wdata := by
    simp [decodeBus, hwe]
  rw [step_access hi hw, hd, exec_decodeWrite]

/-- The step of a host write to the register `sel`, placed before the events `es`. -/
theorem step_placedWrite (s : State) {off : Offset} {sel : BitVec 3} (v : Word) (es : List Event)
    (hsel : off.extractLsb' 2 3 = sel) :
    step { s with inputs := .access (hostWrite off v) :: es } = .next ((s.setInputs es).writeReg sel v) :=
  hsel ▸ step_write (s := { s with inputs := .access (hostWrite off v) :: es }) rfl rfl rfl

/-- Settles O15: CODE 0 is the command that leaves the state. -/
theorem nopChangesNothing : Obligations.NopChangesNothing := by
  refine ⟨fun _ _ _ => rfl, fun s off v es hoff hv => ?_⟩
  have hnop : (s.setInputs es).writeReg 0#3 v = s.setInputs es := if_pos hv
  rw [step_placedWrite s v es hoff, hnop]
  rfl

/-- Settles O16: the five registers are those from COUNT on. -/
theorem readOnlyRegisterWritesAreIgnored : Obligations.ReadOnlyRegisterWritesAreIgnored := by
  refine ⟨fun _ _ _ => ⟨rfl, rfl, rfl, rfl, rfl⟩, fun s off v es h => ?_⟩
  rw [step_placedWrite s v es rfl, writeReg_readOnly _ v h]
  rfl

theorem irq_of_done {s : State} (h : s.done = 1#1) : irq s = s.ie := by
  rw [irq, h]
  exact BitVec.allOnes_and

/-- Settles O17: a CONFIG write is `setConfig` of the four fields of its word. -/
theorem configWriteStoresItsFields : Obligations.ConfigWriteStoresItsFields :=
  ⟨fun _ _ _ _ _ _ _ => rfl, fun s _ v es hoff => step_placedWrite s v es hoff,
    fun s ie h => irq_of_done (s := { s with ie := ie }) h,
    fun s es => step_placedWrite s _ es (sel := 1#3) (by decide)⟩

/-- Clearing bit 1 of a word that ends in `d` and `b`. -/
theorem append_clear_bit1 (x : BitVec 30) (d b : Bit) :
    x ++ 0#1 ++ b = (x ++ d ++ b) &&& (BitVec.allOnes 30 ++ 0#1 ++ BitVec.allOnes 1) := by
  simp only [BitVec.and_append, BitVec.and_allOnes, BitVec.and_zero]

/-- DONE is bit 1 of STATUS (30_encoding.md rule R73). -/
theorem statusWord_done_cleared (s : State) : statusWord { s with done := 0#1 } = statusWord s &&& 0xFFFFFFFD#32 :=
  append_clear_bit1 _ s.done (busy s)

/-- Settles O18: a STATUS write is `clearFlags` of bits 2 and 1, behind a tick too; in STATUS it clears DONE's bit. -/
theorem statusWriteClearsItsFlags : Obligations.StatusWriteClearsItsFlags := by
  refine ⟨fun _ _ _ _ _ _ => rfl, fun s _ v es hoff => step_placedWrite s v es hoff,
    fun s t smp es hi h => step_write (inputs_of_step_tick hi h) rfl rfl,
    fun s es hs => ⟨_, step_placedWrite s _ es (sel := 2#3) (by decide), ?_⟩⟩
  calc statusWord ((s.setInputs es).writeReg 2#3 2#32)
    _ = statusWord { s with done := 0#1 } := rfl
    _ = 0x00280010#32 := by rw [statusWord_done_cleared, hs]; rfl

end Sys2Proof.Machine
end

section
/-! Commands: dispatch, acceptance and rejection (45_host_interface.md rules R171 to R175), and the interrupt (rule
R186). -/

namespace Sys2Proof.Machine

/-- Settles O19: `State.command` is the rule's dispatch, also behind a tick. -/
theorem commandWriteDispatch : Obligations.CommandWriteDispatch := by
  refine ⟨fun s _ v es hoff => step_placedWrite s v es hoff, fun s t smp es hi h ht => ?_⟩
  have hread : (t.setInputs es).writeReg 0#3 1#32 = (t.setInputs es).acceptRead :=
    command_read_of_idle (t.setInputs es) ht
  exact (step_write (inputs_of_step_tick hi h) rfl rfl).trans (congrArg _ hread)

/-- STATUS of a running READ that has just been accepted (rule R173). -/
theorem statusWord_acceptRead {s : State} (h : s.cmderr = 0#1) : statusWord s.acceptRead = 0x00000101#32 := by
  simp [statusWord, busy, h, Phase.code, Result.code]

/-- Settles O20: the accepted state is `acceptRead`, whose PHASE gives the outputs. -/
theorem readAcceptance : Obligations.ReadAcceptance := by
  intro lo ign s hs
  refine ⟨s.acceptRead, ?accepted, rfl, lineOe_eq_one_iff.mpr (.inl rfl), lineOut_eq_zero_iff.mpr ?released,
    busy_eq_one_iff.mpr ?busy, statusWord_acceptRead⟩
  case accepted => rw [exec_read, if_pos hs]
  case released | busy => exact Phase.noConfusion

section measure
variable {p : Params} {smp : Bit} {q : WaitPhase} {s : State} {n : Nat}

/-- Samples at the level within the bound are counted. -/
theorem ticks_self_count (hq : s.phase = q.phase) (hl : smp = waitLevel s q) (hb : waitBound p s q ≤ 65535)
    (h : s.cnt.toNat + n ≤ waitBound p s q + p.slack) :
    ticks p (List.replicate n smp) s = s.setCnt (s.cnt + BitVec.ofNat 17 n) := by
  induction n generalizing s with
  | zero => exact (congrArg s.setCnt (BitVec.add_zero s.cnt)).symm
  | succ n ih =>
    have hs := p.slack_eq ▸ p.order.slack_le_one
    have hc : (s.setCnt (s.cnt + 1#17)).cnt.toNat = s.cnt.toNat + 1 := toNat_succ (by omega)
    have hn : s.cnt + 1#17 + BitVec.ofNat 17 n = s.cnt + BitVec.ofNat 17 (n + 1) := by
      rw [BitVec.add_assoc, BitVec.ofNat_add_ofNat, Nat.add_comm]
    rw [List.replicate_succ, ticks_cons, tick_wait smp hq, waitTick_self_count hl hb (by omega),
      ih (s := s.setCnt (s.cnt + 1#17)) hq (by rwa [waitLevel_setCnt]) (by rwa [waitBound_setCnt])
        (by rw [waitBound_setCnt]; omega), State.setCnt_cnt, hn]
    rfl

/-- A MEASURE whose level ends within the bound records the number of its samples (rules R107 and R108). -/
theorem ticks_measure_done (hs : s.phase = .measure) (hc : s.cnt = 0#17) (hn : n ≤ s.mtoS.toNat + p.slack)
    (h : smp ≠ s.mlvlS) : ticks p (List.replicate n s.mlvlS ++ [smp]) s =
      (s.setCount (BitVec.ofNat 17 n)).completeMeasure := by
  have hcount := ticks_self_count (q := .measure) (smp := s.mlvlS) (p := p) (n := n) hs rfl
    (Nat.le_of_lt_succ s.mtoS.isLt) (by simpa [hc, waitBound] using hn)
  rw [hc, BitVec.zero_add] at hcount
  have hdone : tick p smp (s.setCnt (BitVec.ofNat 17 n)) =
      ((s.setCnt (BitVec.ofNat 17 n)).setCount (BitVec.ofNat 17 n)).completeMeasure :=
    (tick_wait (q := .measure) (s := s.setCnt (BitVec.ofNat 17 n)) smp hs).trans (waitTick_measure_done h)
  rw [ticks_append, hcount, ticks_cons, ticks_nil, hdone]
  rfl

end measure

/-- Settles O21: the accepted state is `acceptMeasure`; its runs are those of any CONFIG, of a wait that completes, and
of a wait that times out. -/
theorem measureAcceptance : Obligations.MeasureAcceptance := by
  intro lo ign s hs
  refine ⟨s.acceptMeasure, ?accepted, rfl, lineOe_eq_zero_iff.mpr ?released, busy_eq_one_iff.mpr Phase.noConfusion,
    fun l thresh ie mlevel mtimeout => ticks_setConfig params s.acceptMeasure l mtimeout mlevel ie thresh,
    fun hl hm => ⟨fun n hn => ?done, ?timeout⟩⟩
  case accepted => rw [exec_measure, if_pos hs]
  case released => simp
  case done =>
    have hm' : s.acceptMeasure.mtoS.toNat = 100 := congrArg BitVec.toNat hm
    have hl' : s.acceptMeasure.mlvlS = 1#1 := hl
    have run := ticks_measure_done (p := params) (s := s.acceptMeasure) (smp := 0#1) (n := n) rfl rfl
      (by rwa [hm']) (by rw [hl']; decide)
    rwa [hl'] at run
  case timeout =>
    have hb : waitBound params s.acceptMeasure .measure = 100 := congrArg BitVec.toNat hm
    rw [ticks_self_timeout (q := .measure) (n := 100) rfl hl.symm (by rw [hb]; decide) (by rw [hb]; rfl), hb]
    rfl

/-! Which steps move DONE, IE and CMDERR. -/

theorem WaitPhase.phase_ne_idle (q : WaitPhase) : q.phase ≠ .idle := by cases q <;> decide

theorem frameEnd_done (s : State) : s.frameEnd.done = 1#1 := by
  cases h : frameCheck s.shift
  · rw [frameEnd_mismatch h]; rfl
  · rw [frameEnd_valid h]; rfl

/-- The step from `s` to `t` ends a command (60_exceptions.md rule R203). -/
def EndsCommand (s t : State) : Prop := s.phase ≠ .idle ∧ t.phase = .idle ∧ t.done = 1#1

section flags
variable {p : Params} {smp : Bit} {s t : State}

theorem TickEffect.done_cases (h : TickEffect p smp s t) : t.done = s.done ∨ EndsCommand s t := by
  cases h with
  | idle | count | startHigh | release | ackHigh | bitMark | bitHigh | nextBit => exact .inl rfl
  | timeout q h => exact .inr ⟨h ▸ q.phase_ne_idle, rfl, rfl⟩
  | frameEnd h => exact .inr ⟨by simp [h], frameEnd_phase _, frameEnd_done _⟩
  | measured h => exact .inr ⟨by simp [h], rfl, rfl⟩

/-- The step from `s` to `t` leaves IE and CMDERR, and moves DONE only by ending a command. -/
def KeepsFlags (s t : State) : Prop := t.ie = s.ie ∧ t.cmderr = s.cmderr ∧ (t.done = s.done ∨ EndsCommand s t)

theorem tick_keepsFlags (smp : Bit) (s : State) : KeepsFlags s (tick params smp s) :=
  ⟨tick_ie params smp s, tick_cmderr params smp s,
    (tick_effect smp s (by decide) (by decide) (by decide)).done_cases⟩

theorem clockEdge_keepsFlags (p : Params) (smp : Bit) (s : State) : KeepsFlags s (s.clockEdge p smp) := by
  rcases clockEdge_cases p smp s with e | e <;> rw [e] <;> exact ⟨rfl, rfl, .inl rfl⟩

/-- A step of an access writes a register, or returns a word. -/
theorem step_access_cases {a : Access} {es : List Event} (hi : s.inputs = .access a :: es) (hw : a.width = 32)
    (h : step s = .next t) :
    (∃ sel v, Safety.nextIsWrite s sel v ∧ t = (s.setInputs es).writeReg sel v) ∨
      ∃ w, t = (s.setInputs es).setRdata w := by
  by_cases hwe : a.we = 1#1
  · rw [step_write hi hw hwe] at h
    cases h
    exact .inl ⟨_, _, ⟨a, by rw [hi]; rfl, hw, hwe, rfl, rfl⟩, rfl⟩
  · rw [step_read hi hw (eq_zero_of_ne_one hwe)] at h
    cases h
    exact .inr ⟨_, rfl⟩

/-- The flags' inversion of `step`: a reset, a host write, or a step that keeps the flags. -/
theorem step_flags_cases (h : step s = .next t) :
    (Safety.nextIsReset s = true ∧ ∃ u : State, t = u.resetBlock) ∨
    (∃ sel v es, Safety.nextIsWrite s sel v ∧ t = (s.setInputs es).writeReg sel v) ∨ KeepsFlags s t := by
  obtain ⟨-, rfl⟩ | ⟨smp, es, -, rfl⟩ | ⟨a, es, hi, hw, -, -⟩ | ⟨es, hi, rfl⟩ | ⟨smp, es, -, rfl⟩ := step_cases h
  · exact .inr (.inr (tick_keepsFlags _ s.countDraw))
  · exact .inr (.inr (tick_keepsFlags smp (s.setInputs es)))
  · obtain ⟨sel, v, hn, rfl⟩ | ⟨w, rfl⟩ := step_access_cases hi hw h
    · exact .inr (.inl ⟨sel, v, es, hn, rfl⟩)
    · exact .inr (.inr ⟨rfl, rfl, .inl rfl⟩)
  · exact .inl ⟨by simp [Safety.nextIsReset, hi], _, rfl⟩
  · exact .inr (.inr (clockEdge_keepsFlags params smp (s.setInputs es)))

end flags

/-- Settles O22: each rejection is `reject`; a step that lowers CMDERR is a reset or a STATUS write. -/
theorem rejectionSetsStickyCmderr : Obligations.RejectionSetsStickyCmderr := by
  refine ⟨fun _ _ _ => rfl, fun _ _ _ _ => rfl, fun lo ign s hs => ⟨?read, ?measure⟩, fun s t h hs => ?sticky⟩
  case read => rw [exec_read, if_neg hs]; rfl
  case measure => rw [exec_measure, if_neg hs]; rfl
  case sticky =>
    obtain ⟨hr, -⟩ | ⟨sel, v, es, hn, rfl⟩ | ⟨-, hc, -⟩ := step_flags_cases h
    · exact .inr (.inl hr)
    · obtain hc | ⟨rfl, hv⟩ := writeReg_cmderr (s.setInputs es) (sel := sel) v hs
      · exact .inl hc
      · exact .inr (.inr ⟨v, hn, hv⟩)
    · exact .inl (hc.trans hs)

section irq
variable {s t : State}

theorem irq_eq_one_iff : irq s = 1#1 ↔ s.done = 1#1 ∧ s.ie = 1#1 := by
  have and_iff : ∀ a b : Bit, a &&& b = 1#1 ↔ a = 1#1 ∧ b = 1#1 := by decide
  exact and_iff s.done s.ie

theorem not_done_and_ie (h : irq s = 0#1) : ¬(s.done = 1#1 ∧ s.ie = 1#1) := fun hs =>
  absurd (h.symm.trans (irq_eq_one_iff.mpr hs)) (by decide)

/-- What raises `irq` (rule R186). -/
theorem step_irq_rises (h : step s = .next t) (hs : irq s = 0#1) (ht : irq t = 1#1) :
    (s.phase ≠ .idle ∧ t.phase = .idle ∧ s.ie = 1#1) ∨
      (s.done = 1#1 ∧ ∃ v, Safety.nextIsWrite s 1#3 v ∧ v.extractLsb' 8 1 = 1#1) := by
  obtain ⟨hd, hi⟩ := irq_eq_one_iff.mp ht
  have hs := not_done_and_ie hs
  obtain ⟨-, u, rfl⟩ | ⟨sel, v, es, hn, rfl⟩ | ⟨hie, -, hdone | ⟨hp, hp', -⟩⟩ := step_flags_cases h
  · exact absurd hd (show 0#1 ≠ 1#1 by decide)
  · obtain hdone | ⟨hdone, -⟩ := writeReg_done (s.setInputs es) (sel := sel) v
    · have hd' : s.done = 1#1 := hdone.symm.trans hd
      rw [writeReg_ie] at hi
      split_ifs at hi with hsel
      · exact .inr ⟨hd', v, hsel ▸ hn, hi⟩
      · exact absurd ⟨hd', hi⟩ hs
    · exact absurd (hdone.symm.trans hd) (by decide)
  · exact absurd ⟨hdone ▸ hd, hie ▸ hi⟩ hs
  · exact .inl ⟨hp, hp', hie ▸ hi⟩

/-- What lowers `irq` (rule R186). -/
theorem step_irq_falls (h : step s = .next t) (hs : irq s = 1#1) (ht : irq t = 0#1) :
    Safety.nextIsReset s = true ∨
    (∃ v, Safety.nextIsWrite s 2#3 v ∧ v.extractLsb' 1 1 = 1#1) ∨
    (∃ v, Safety.nextIsWrite s 1#3 v ∧ v.extractLsb' 8 1 = 0#1) ∨
    (s.phase = .idle ∧ ∃ v, Safety.nextIsWrite s 0#3 v ∧ (v.extractLsb' 0 3 = 1#3 ∨ v.extractLsb' 0 3 = 2#3)) := by
  obtain ⟨hd, hi⟩ := irq_eq_one_iff.mp hs
  have ht := not_done_and_ie ht
  obtain ⟨hr, -⟩ | ⟨sel, v, es, hn, rfl⟩ | ⟨hie, -, hdone | ⟨-, -, hdone⟩⟩ := step_flags_cases h
  · exact .inl hr
  · obtain hdone | ⟨-, ⟨rfl, hv⟩ | ⟨rfl, hp, hv⟩⟩ := writeReg_done (s.setInputs es) (sel := sel) v
    · have hie := not_and.mp ht (hdone.trans hd)
      rw [writeReg_ie] at hie
      split_ifs at hie with hsel
      · exact .inr (.inr (.inl ⟨v, hsel ▸ hn, eq_zero_of_ne_one hie⟩))
      · exact absurd hi hie
    · exact .inr (.inl ⟨v, hn, hv⟩)
    · exact .inr (.inr (.inr ⟨hp, v, hn, hv⟩))
  · exact absurd ⟨hdone.trans hd, hie.trans hi⟩ ht
  · exact absurd ⟨hdone, hie.trans hi⟩ ht

end irq

/-- Settles O47: `irq` as the conjunction of DONE and IE, and the steps that move either. -/
theorem interruptRisesAndFalls : Obligations.InterruptRisesAndFalls :=
  ⟨fun _ => irq_eq_one_iff, fun _ _ => step_irq_rises, fun _ _ => step_irq_falls⟩

end Sys2Proof.Machine
end

section
/-! The end of a command (60_exceptions.md): the ticks within which each command ends (rule R214), the record of a
timeout (rule R202), and the one outcome of any end (rule R203). -/

namespace Sys2Proof

theorem Params.slack_of_incrementThenCheck (p : Params) (h : p.order = .incrementThenCheck) : p.slack = 0 := by
  rw [p.slack_eq, h]; rfl

theorem Params.slack_of_checkThenIncrement (p : Params) (h : p.order = .checkThenIncrement) : p.slack = 1 := by
  rw [p.slack_eq, h]; rfl

namespace Machine

/-! Every command ends. -/

/-- Whatever the samples, a run from `s` has ended after `n` ticks. -/
def EndsWithin (p : Params) (n : Nat) (s : State) : Prop :=
  ∀ l : List Bit, n ≤ l.length → runEnded (ticks p l s) = true

/-- Behind a sample off the level of wait `q` at most `m` more ticks follow, whatever the wait has counted. -/
def LeavesWithin (p : Params) (m : Nat) (q : WaitPhase) (s : State) : Prop :=
  ∀ (c : TickCount) (smp : Bit), smp ≠ waitLevel s q → EndsWithin p m (waitTick p smp q (s.setCnt c))

section endsWithin
variable {p : Params} {m n : Nat} {q : WaitPhase} {s : State}

theorem EndsWithin.mono (h : EndsWithin p m s) (hmn : m ≤ n) : EndsWithin p n s := fun l hl => h l (hmn.trans hl)

theorem endsWithin_of_ended (hs : s.phase = .idle) (hd : s.done = 1#1) : EndsWithin p n s := by
  intro l _
  rw [ticks_idle l hs, runEnded, hs, hd]
  rfl

theorem endsWithin_of_tick (h : ∀ smp, EndsWithin p n (tick p smp s)) : EndsWithin p (n + 1) s := by
  intro l hl
  obtain ⟨a, l, rfl⟩ := List.exists_cons_of_length_pos (Nat.zero_lt_of_lt hl)
  exact h a l (Nat.le_of_succ_le_succ hl)

/-- A driven phase entered with CNT 0 spends its duration (41_start_sequence.md rule R124). -/
theorem Drives.endsWithin {r r' : Phase} {d : Nat} (hr : Drives p r d r') (hd : Params.legal d) (hs : s.phase = r)
    (hc : s.cnt = 0#17) (h : EndsWithin p m (s.enter r')) : EndsWithin p (d + m) s := by
  intro l hl
  rw [hr.ticks_of_le hd hs hc (by omega)]
  exact h _ (by rw [List.length_drop]; omega)

theorem LeavesWithin.setCnt (h : LeavesWithin p m q s) (c : TickCount) : LeavesWithin p m q (s.setCnt c) :=
  fun c' smp hl => h c' smp (waitLevel_setCnt s q c ▸ hl)

/-- A wait tick ends the wait by a sample off its level, or goes on from a sample at it. -/
theorem LeavesWithin.endsWithin_of_self (h : LeavesWithin p m q s) (hq : s.phase = q.phase)
    (hself : EndsWithin p (n + m) (waitTick p (waitLevel s q) q s)) : EndsWithin p (n + 1 + m) s := by
  rw [Nat.add_right_comm]
  refine endsWithin_of_tick fun smp => ?_
  rw [tick_wait smp hq]
  by_cases hl : smp = waitLevel s q
  · exact hl ▸ hself
  · exact (h s.cnt smp hl).mono (Nat.le_add_left m n)

/-- A wait counts to its bound, the slack of the order included, and one more sample ends it
(40_pulse_timer.md rules R102 and R109). -/
theorem LeavesWithin.endsWithin (h : LeavesWithin p m q s) (hp : p.wf) (hq : s.phase = q.phase)
    (hc : s.cnt.toNat + n = waitBound p s q + p.slack) : EndsWithin p (n + 1 + m) s := by
  have hb := waitBound_le hp s q
  have hsl := p.slack_eq ▸ p.order.slack_le_one
  induction n generalizing s with
  | zero =>
    refine h.endsWithin_of_self hq ?_
    rw [waitTick_self_timeout rfl hb hc]
    exact endsWithin_of_ended rfl rfl
  | succ n ih =>
    refine h.endsWithin_of_self hq ?_
    have hcnt : (s.setCnt (s.cnt + 1#17)).cnt.toNat = s.cnt.toNat + 1 := toNat_succ (by omega)
    rw [waitTick_self_count rfl hb (by omega)]
    exact ih (h.setCnt _) hq (by rw [waitBound_setCnt]; omega) (by rwa [waitBound_setCnt])

/-- A wait entered with CNT 0 spends one tick more than its bound. -/
theorem LeavesWithin.endsWithin_fresh (h : LeavesWithin p m q s) (hp : p.wf) (hq : s.phase = q.phase)
    (hc : s.cnt = 0#17) : EndsWithin p (waitBound p s q + p.slack + 1 + m) s :=
  h.endsWithin hp hq (by rw [hc]; exact Nat.zero_add _)

/-- A chained wait has counted its first sample already, so it spends no more than its bound
(40_pulse_timer.md rule R104). -/
theorem LeavesWithin.endsWithin_chained (h : LeavesWithin p m q s) (hp : p.wf) (hq : s.phase = q.phase)
    (hc : s.cnt = 1#17) (hb : 1 ≤ waitBound p s q) : EndsWithin p (waitBound p s q + p.slack + m) s := by
  obtain ⟨n, hn⟩ := Nat.exists_eq_add_of_le' (Nat.le_add_right_of_le (k := p.slack) hb)
  rw [hn]
  exact h.endsWithin hp hq (by rw [hc, hn]; exact Nat.add_comm 1 n)

end endsWithin

section commands
variable {p : Params} {k m : Nat} {s : State}

/-- The most ticks one bit can take. -/
def bitTicks (p : Params) : Nat := (p.toMark + p.slack) + (p.toHigh + p.slack)

/-- BIT_HIGH spends its bound; then the frame ends, or the next bit's marker begins. -/
theorem endsWithin_bitHigh (hp : p.wf) (hs : s.phase = .bitHigh) (hc : s.cnt = 1#17)
    (hmark : ∀ t : State, (s.bitidx + 1#6).toNat ≠ p.nbits → t.phase = .bitMark → t.cnt = 1#17 →
      t.bitidx = s.bitidx + 1#6 → EndsWithin p m t) :
    EndsWithin p (p.toHigh + p.slack + m) s := by
  have ⟨_, _, _, _, hm, hh, _⟩ := hp
  refine LeavesWithin.endsWithin_chained (q := .bitHigh) (fun c smp hl => ?_) hp hs hc hh.1
  rw [eq_zero_of_ne_one hl]
  by_cases hn : (s.bitidx + 1#6).toNat = p.nbits
  · rw [waitTick_bitHigh_last (s := s.setCnt c) hn]
    exact endsWithin_of_ended (frameEnd_phase _) (frameEnd_done _)
  · rw [waitTick_bitHigh_done (s := s.setCnt c) hm.1 hn]
    exact hmark _ hn rfl rfl rfl

/-- BIT_MARK with `k` bits to come spends at most the ticks of those bits. -/
theorem endsWithin_bitMark (hp : p.wf) (hs : s.phase = .bitMark) (hc : s.cnt = 1#17) (hi : s.bitidx.toNat < p.nbits)
    (hk : s.bitidx.toNat + k = p.nbits) : EndsWithin p (k * bitTicks p) s := by
  have ⟨_, _, _, _, hmark, hhigh, hn, _⟩ := hp
  induction k generalizing s with
  | zero => exact absurd hk hi.ne
  | succ k ih =>
    have hsplit : (k + 1) * bitTicks p = p.toMark + p.slack + (p.toHigh + p.slack + k * bitTicks p) := by
      rw [Nat.succ_mul, Nat.add_comm, bitTicks, Nat.add_assoc]
    have hnext : (s.bitidx + 1#6).toNat = s.bitidx.toNat + 1 :=
      BitVec.toNat_add_of_lt (show s.bitidx.toNat + 1 < 64 by omega)
    rw [hsplit]
    refine LeavesWithin.endsWithin_chained (q := .bitMark) (fun c smp hl => ?_) hp hs hc hmark.1
    rw [eq_one_of_ne_zero hl, waitTick_bitMark_done hhigh.1]
    refine endsWithin_bitHigh hp rfl rfl fun t (hmore : (s.bitidx + 1#6).toNat ≠ p.nbits) hph hcnt hbit => ?_
    have hi' : t.bitidx.toNat = s.bitidx.toNat + 1 := (congrArg BitVec.toNat hbit).trans hnext
    exact ih hph hcnt (by omega) (by omega)

/-- ACK_HIGH behind its chained entry, with no bit of the frame received. -/
theorem endsWithin_ackHigh (hp : p.wf) (hs : s.phase = .ackHigh) (hc : s.cnt = 1#17) (hi : s.bitidx = 0#6) :
    EndsWithin p (p.toAckHigh + p.slack + p.nbits * bitTicks p) s := by
  have ⟨_, _, _, hah, hmark, _, hn, _⟩ := hp
  refine LeavesWithin.endsWithin_chained (q := .ackHigh) (fun c smp hl => ?_) hp hs hc hah.1
  rw [eq_zero_of_ne_one hl, waitTick_ackHigh_done hmark.1]
  exact endsWithin_bitMark hp rfl rfl (by simp [hi, hn]) (by simp [hi])

/-- ACK_LOW behind the release of the line. -/
theorem endsWithin_ackLow (hp : p.wf) (hs : s.phase = .ackLow) (hc : s.cnt = 0#17) (hi : s.bitidx = 0#6) :
    EndsWithin p (p.toAckLow + p.slack + 1 + (p.toAckHigh + p.slack + p.nbits * bitTicks p)) s := by
  have ⟨_, _, _, hah, _⟩ := hp
  refine LeavesWithin.endsWithin_fresh (q := .ackLow) (fun c smp hl => ?_) hp hs hc
  rw [eq_one_of_ne_zero hl, waitTick_ackLow_done hah.1]
  exact endsWithin_ackHigh hp rfl rfl hi

/-- A READ spends its start sequence, then its waits (rule R214). -/
theorem endsWithin_acceptRead (hp : p.wf) (s : State) : EndsWithin p (readBound p) s.acceptRead := by
  have ⟨hlow, hhigh, _⟩ := hp
  have hsum : readBound p = p.tStartLow + (p.tStartHigh + (p.toAckLow + p.slack + 1 +
      (p.toAckHigh + p.slack + p.nbits * bitTicks p))) := by simp only [readBound, bitTicks, Nat.add_assoc]
  rw [hsum]
  refine (drives_startLow p).endsWithin hlow rfl rfl ?_
  refine (drives_startHigh p).endsWithin hhigh rfl rfl ?_
  exact endsWithin_ackLow hp rfl rfl rfl

/-- A MEASURE is one wait, whose end is the end of the command (rules R107, R108 and R214). -/
theorem endsWithin_acceptMeasure (hp : p.wf) (s : State) :
    EndsWithin p (s.acceptMeasure.mtoS.toNat + p.slack + 1) s.acceptMeasure := by
  refine LeavesWithin.endsWithin_fresh (m := 0) (q := .measure) (fun c smp hl => ?_) hp rfl rfl
  rw [waitTick_measure_done (s := s.acceptMeasure.setCnt c) hl]
  exact endsWithin_of_ended rfl rfl

end commands

/-- Settles O59: both orders from `endsWithin_acceptMeasure` and `endsWithin_acceptRead`, with the slack of each. -/
theorem everyCommandEnds : Obligations.EveryCommandEnds := by
  refine ⟨fun _ _ _ => rfl, fun p s l hp ho hl => ?measure, fun p s l hp ho hl => ?read, by decide,
    fun p s l hp ho => ⟨fun hl => ?otherMeasure, endsWithin_acceptRead hp s l⟩, by decide⟩
  case measure =>
    refine endsWithin_acceptMeasure hp s l ?_
    rwa [p.slack_of_incrementThenCheck ho]
  case read =>
    refine endsWithin_acceptRead hp s l ?_
    rwa [readBound, p.slack_of_incrementThenCheck ho]
  case otherMeasure =>
    refine endsWithin_acceptMeasure hp s l ?_
    rwa [p.slack_of_checkThenIncrement ho]

/-! What the end of a command records. -/

section record
variable {p : Params} {smp : Bit} {s t : State}

/-- FAIL(q) on a sample at the level with CNT at the bound, in either comparison order (rule R202). -/
theorem tick_timeout (hp : p.wf) (q : WaitPhase) (hq : s.phase = q.phase)
    (hc : s.cnt.toNat = waitBound p s q + p.slack) :
    tick p (waitLevel s q) s = (s.setCount (BitVec.ofNat 17 (waitBound p s q + 1))).failWait q := by
  rw [tick_wait _ hq, waitTick_self_timeout rfl (waitBound_le hp s q) hc]

/-- Settles O44: `tick_timeout` in each of the five waits. -/
theorem timeoutRecord : Obligations.TimeoutRecord := fun p _ hp =>
  ⟨tick_timeout hp .ackLow, tick_timeout hp .ackHigh, tick_timeout hp .bitMark, tick_timeout hp .bitHigh,
    tick_timeout hp .measure, p.slack_of_incrementThenCheck, p.slack_of_checkThenIncrement⟩

/-- The outcomes that a command which ends in phase `r` may record in `t`, by the procedure that ends it (rule R203):
FAIL(q), FRAME_END or COMPLETE(MEASURE). `i` is BITIDX before the tick. -/
inductive OutcomeOf (r : Phase) (i : BitVec 6) (t : State) : Prop where
  | timeout (q : WaitPhase) (hq : r = q.phase) (hr : t.result = timeoutResult q) (he : t.errphase = q.phase.code)
      (hi : t.bitidx = i)
  | frameEnd (hq : r = .bitHigh) (hr : t.result = .valid ∨ t.result = .checksumMismatch) (he : t.errphase = 0#3)
      (hi : t.bitidx = 40#6)
  | measured (hq : r = .measure) (hr : t.result = .measureOk) (he : t.errphase = 0#3) (hi : t.bitidx = i)

/-- The end of a command: DONE is set, CNT is cleared, and one outcome is recorded (rule R203). -/
def RecordsOutcome (r : Phase) (i : BitVec 6) (t : State) : Prop :=
  t.done = 1#1 ∧ t.cnt = 0#17 ∧ OutcomeOf r i t

/-- FRAME_END behind bit 39 (44_checksum_validator.md rule R161). -/
theorem recordsOutcome_frameEnd (hs : s.bitidx = 40#6) (i : BitVec 6) : RecordsOutcome .bitHigh i s.frameEnd := by
  cases h : frameCheck s.shift
  · rw [frameEnd_mismatch h]; exact ⟨rfl, rfl, .frameEnd rfl (.inr rfl) rfl hs⟩
  · rw [frameEnd_valid h]; exact ⟨rfl, rfl, .frameEnd rfl (.inl rfl) rfl hs⟩

/-- A tick that ends a command ends it by one of the three procedures: the start sequence cannot. -/
theorem TickEffect.recordsOutcome (h : TickEffect p smp s t) (hn : p.nbits = 40) (hs : s.phase ≠ .idle)
    (ht : t.phase = .idle) : RecordsOutcome s.phase s.bitidx t := by
  cases h with
  | idle h => exact absurd h hs
  | count => exact absurd ht hs
  | startHigh | release | ackHigh | bitMark | bitHigh | nextBit => cases ht
  | timeout q h => exact ⟨rfl, rfl, .timeout q h rfl rfl rfl⟩
  | frameEnd h _ hlast =>
    rw [h]
    exact recordsOutcome_frameEnd (BitVec.eq_of_toNat_eq (hlast.trans hn)) s.bitidx
  | measured h => exact ⟨rfl, rfl, .measured h rfl rfl rfl⟩

/-- No host operation moves PHASE while a command runs. -/
theorem HostEffect.phase_eq (h : HostEffect s t) (hs : s.phase ≠ .idle) : t.phase = s.phase := by
  cases h with
  | read hi | measure hi => exact absurd hi hs
  | same | reject | config | status | word => rfl

/-- A command ends at a tick, which records one outcome; a reset apart, no other step ends it. -/
theorem step_recordsOutcome (h : step s = .next t) (hr : Safety.nextIsReset s = false) (hs : s.phase ≠ .idle)
    (ht : t.phase = .idle) : (Safety.nextTick s).isSome = true ∧ RecordsOutcome s.phase s.bitidx t := by
  obtain ⟨hi, rfl⟩ | ⟨smp, es, hi, rfl⟩ | ⟨-, es, -, -, -, he⟩ | ⟨es, hi, rfl⟩ | ⟨smp, es, -, rfl⟩ := step_cases h
  · exact ⟨by rw [nextTick_of_nil hi]; rfl,
      (tick_effect _ s.countDraw (by decide) (by decide) (by decide)).recordsOutcome rfl hs ht⟩
  · exact ⟨by rw [nextTick_of_tick hi]; rfl,
      (tick_effect smp (s.setInputs es) (by decide) (by decide) (by decide)).recordsOutcome rfl hs ht⟩
  · exact absurd ((he.phase_eq hs).symm.trans ht) hs
  · simp [Safety.nextIsReset, hi] at hr
  · refine absurd (Eq.trans ?_ ht) hs
    rcases clockEdge_cases params smp (s.setInputs es) with e | e <;> rw [e] <;> rfl

end record

/-- Settles O45: its eight cases are the five timeouts, the two ends of a frame and the completed MEASURE. -/
theorem commandEndRecordsOneOutcome : Obligations.CommandEndRecordsOneOutcome := by
  intro s t h hr hs ht
  obtain ⟨htick, hdone, hcnt, hout⟩ := step_recordsOutcome h hr hs ht
  refine ⟨htick, hdone, hcnt, ?_⟩
  cases hout with
  | timeout q hq hr he hi =>
    rw [hq, hr, he, hi]
    cases q <;> simp [WaitPhase.phase, timeoutResult, Phase.code]
  | frameEnd hq hr he hi =>
    rcases hr with hr | hr <;> simp [hq, hr, he, hi]
  | measured hq hr he hi => simp [hq, hr, he, hi]

end Machine
end Sys2Proof
end

section
/-! A CONFIG write and the command that runs meanwhile, and the command that comes next (70_reset_and_hazards.md rule
R236). -/

namespace Sys2Proof.Machine

section acceptance
variable {s t : State} {lo : BitVec 2} {ign : BitVec 29}

/-- The state behind a READ in IDLE (45_host_interface.md rule R173). -/
theorem eq_acceptRead_of_exec (hs : s.phase = .idle) (h : exec (.read lo ign) s = .next t) : t = s.acceptRead := by
  rw [exec_read, if_pos hs] at h
  injection h with h
  exact h.symm

/-- The state behind a MEASURE in IDLE (45_host_interface.md rule R174). -/
theorem eq_acceptMeasure_of_exec (hs : s.phase = .idle) (h : exec (.measure lo ign) s = .next t) :
    t = s.acceptMeasure := by
  rw [exec_measure, if_pos hs] at h
  injection h with h
  exact h.symm

end acceptance

/-- Settles O51: a run of ticks commutes with `setConfig`, which leaves DONE and the snapshots alone, and an acceptance
copies the fields that `setConfig` has stored. -/
theorem configWriteIsHarmlessToACommand : Obligations.ConfigWriteIsHarmlessToACommand := by
  refine ⟨fun p l s thresh ie mlevel mtimeout => ticks_setConfig p s l mtimeout mlevel ie thresh, ?_⟩
  intro lo lo' mtimeout ign ign' mlevel ie thresh s t u v h
  obtain rfl : s.setConfig mtimeout mlevel ie thresh = t := by injection h
  refine ⟨rfl, rfl, rfl, rfl, fun ht hu => ?read, fun ht hv => ?measure⟩
  case read => rw [eq_acceptRead_of_exec ht hu]; rfl
  case measure => rw [eq_acceptMeasure_of_exec ht hv]; exact ⟨rfl, rfl⟩

end Sys2Proof.Machine
end

section
/-! The decoder and the encoder are inverse to each other (30_encoding.md rules R70 to R73, R80 and R82), and so is the
model's byte layout (log entry 8). -/

namespace Sys2Proof

/-! Decoding the encoder's words. -/

section decode
variable (lo : BitVec 2)

/-- A CMD write given by its data's two fields (30_encoding.md rules R71 and R80). -/
theorem decodeCommand_append (ign : BitVec 29) (c : Code) :
    decodeCommand lo (ign ++ c) =
      if c = 0#3 then .nop lo ign
      else if c = 1#3 then .read lo ign
      else if c = 2#3 then .measure lo ign
      else if c = 3#3 then .cmdRsv3 lo ign
      else .cmdRsv47 lo ign (c.extractLsb' 0 2) := by
  simp only [decodeCommand, commandData_code, commandData_ign, extract_append_low ign c 0 (k := 2) (by decide)]

/-- A reserved CODE of 4 to 7 is none of the four named ones, and keeps its two lower bits. -/
theorem reservedCode_spec (code : BitVec 2) :
    1#1 ++ code ≠ 0#3 ∧ 1#1 ++ code ≠ 1#3 ∧ 1#1 ++ code ≠ 2#3 ∧ 1#1 ++ code ≠ 3#3 ∧
      (1#1 ++ code).extractLsb' 0 2 = code := by
  revert code; decide

theorem append_code_assoc (ign : BitVec 29) (b : Bit) (code : BitVec 2) : ign ++ b ++ code = ign ++ (b ++ code) :=
  BitVec.append_assoc

theorem decodeCommand_reserved (ign : BitVec 29) (code : BitVec 2) :
    decodeCommand lo (ign ++ 1#1 ++ code) = .cmdRsv47 lo ign code := by
  obtain ⟨h0, h1, h2, h3, hc⟩ := reservedCode_spec code
  rw [append_code_assoc]
  refine (decodeCommand_append lo ign (1#1 ++ code)).trans ?_
  rw [if_neg h0, if_neg h1, if_neg h2, if_neg h3, hc]

/-- A CONFIG write given by its five fields (30_encoding.md rule R72). -/
theorem decodeWrite_config (mtimeout : BitVec 16) (ign : BitVec 6) (mlevel ie : Bit) (thresh : Byte) :
    decodeWrite 1#3 lo (mtimeout ++ ign ++ mlevel ++ ie ++ thresh) = .wrConfig lo mtimeout ign mlevel ie thresh := by
  show Instr.wrConfig lo _ _ _ _ _ = _
  congr 1
  · rw [extract_append_high _ _ _ (by decide), extract_append_high _ _ _ (by decide),
      extract_append_high _ _ _ (by decide), extract_append_high _ _ _ (by decide), extract_all]
  · rw [extract_append_high _ _ _ (by decide), extract_append_high _ _ _ (by decide),
      extract_append_high _ _ _ (by decide), extract_append_low _ _ _ (by decide), extract_all]
  · rw [extract_append_high _ _ _ (by decide), extract_append_high _ _ _ (by decide),
      extract_append_low _ _ _ (by decide), extract_all]
  · rw [extract_append_high _ _ _ (by decide), extract_append_low _ _ _ (by decide), extract_all]
  · rw [extract_append_low _ _ _ (by decide), extract_all]

/-- A STATUS write given by its four fields (30_encoding.md rule R73). -/
theorem decodeWrite_status (ign : BitVec 29) (clrCmderr clrDone ign0 : Bit) :
    decodeWrite 2#3 lo (ign ++ clrCmderr ++ clrDone ++ ign0) = .wrStatus lo ign clrCmderr clrDone ign0 := by
  show Instr.wrStatus lo _ _ _ _ = _
  congr 1
  · rw [extract_append_high _ _ _ (by decide), extract_append_high _ _ _ (by decide),
      extract_append_high _ _ _ (by decide), extract_all]
  · rw [extract_append_high _ _ _ (by decide), extract_append_high _ _ _ (by decide),
      extract_append_low _ _ _ (by decide), extract_all]
  · rw [extract_append_high _ _ _ (by decide), extract_append_low _ _ _ (by decide), extract_all]
  · rw [extract_append_low _ _ _ (by decide), extract_all]

end decode

/-- Settles O1: a request word decodes by its fields, the data of a CMD, CONFIG or STATUS write by theirs. -/
theorem decodeOfEncodeIsIdentity : Obligations.DecodeOfEncodeIsIdentity := by
  intro i
  cases i with
  | nop lo ign | read lo ign | measure lo ign | cmdRsv3 lo ign =>
    exact (decodeBus_write _ _ _).trans (decodeCommand_append lo ign _)
  | cmdRsv47 lo ign code => exact (decodeBus_write _ _ _).trans (decodeCommand_reserved lo ign code)
  | wrConfig lo mtimeout ign mlevel ie thresh => exact (decodeBus_write _ _ _).trans (decodeWrite_config lo ..)
  | wrStatus lo ign clrCmderr clrDone ign0 => exact (decodeBus_write _ _ _).trans (decodeWrite_status lo ..)
  | wrCount lo v | wrData0 lo v | wrData1 lo v | wrRaw0 lo v | wrRaw1 lo v => exact decodeBus_write _ lo v
  | rdCmd lo v | rdConfig lo v | rdStatus lo v | rdCount lo v | rdData0 lo v | rdData1 lo v | rdRaw0 lo v
  | rdRaw1 lo v => exact decodeBus_read _ lo v
  | tickIdle | tickStartLow | tickStartHigh | tickAckLow | tickAckHigh | tickBitMark | tickBitHigh | tickMeasure => rfl

/-! Encoding the decoder's instructions. -/

/-- Two neighbouring fields of a word, joined. -/
theorem extract_append_extract {n : Nat} (x : BitVec n) (i j k : Nat) :
    x.extractLsb' (i + j) k ++ x.extractLsb' i j = x.extractLsb' i (k + j) :=
  BitVec.extractLsb'_append_extractLsb'_eq_extractLsb' rfl

theorem data_eq_append (v : Word) : v.extractLsb' 3 29 ++ v.extractLsb' 0 3 = v :=
  (extract_append_extract v 0 3 29).trans (extract_all v)

theorem requestWord_fields (w : RequestWord) :
    requestWord (w.extractLsb' 37 1) (w.extractLsb' 34 3) (w.extractLsb' 32 2) (w.extractLsb' 0 32) = w := by
  have hsel : w.extractLsb' 37 1 ++ w.extractLsb' 34 3 = w.extractLsb' 34 4 := extract_append_extract w 34 3 1
  have hlo : w.extractLsb' 34 4 ++ w.extractLsb' 32 2 = w.extractLsb' 32 6 := extract_append_extract w 32 2 4
  have hdata : w.extractLsb' 32 6 ++ w.extractLsb' 0 32 = w :=
    (extract_append_extract w 0 32 6).trans (extract_all w)
  exact (congrArg (fun x : BitVec 4 => x ++ w.extractLsb' 32 2 ++ w.extractLsb' 0 32) hsel).trans
    ((congrArg (fun x : BitVec 6 => x ++ w.extractLsb' 0 32) hlo).trans hdata)

section encode
variable (lo : BitVec 2) (v : Word)

/-- The one bit above the kept two of a reserved CODE of 4 to 7. -/
theorem reservedCode_of_ne {c : Code} (h0 : c ≠ 0#3) (h1 : c ≠ 1#3) (h2 : c ≠ 2#3) (h3 : c ≠ 3#3) :
    1#1 ++ c.extractLsb' 0 2 = c := by
  revert c; decide

theorem encode_decodeCommand : encode (decodeCommand lo v) = .bus (requestWord 1#1 0#3 lo v) := by
  obtain ⟨ign, code, rfl⟩ : ∃ (ign : BitVec 29) (code : Code), v = ign ++ code := ⟨_, _, (data_eq_append v).symm⟩
  refine (congrArg encode (decodeCommand_append lo ign code)).trans ?_
  split_ifs with h0 h1 h2 h3
  case neg =>
    show Raw.bus (requestWord 1#1 0#3 lo (ign ++ 1#1 ++ code.extractLsb' 0 2)) = _
    rw [append_code_assoc, reservedCode_of_ne h0 h1 h2 h3]
  all_goals subst code; rfl

/-- The fields of a CONFIG write make up its data. -/
theorem configData_eq :
    v.extractLsb' 16 16 ++ v.extractLsb' 10 6 ++ v.extractLsb' 9 1 ++ v.extractLsb' 8 1 ++ v.extractLsb' 0 8 = v := by
  rw [extract_append_extract v 10 6 16, extract_append_extract v 9 1 22, extract_append_extract v 8 1 23,
    extract_append_extract v 0 8 24, extract_all]

/-- The fields of a STATUS write make up its data. -/
theorem statusData_eq :
    v.extractLsb' 3 29 ++ v.extractLsb' 2 1 ++ v.extractLsb' 1 1 ++ v.extractLsb' 0 1 = v := by
  rw [extract_append_extract v 2 1 29, extract_append_extract v 1 1 30, extract_append_extract v 0 1 31, extract_all]

/-- A register select that is none of 0 to 6 is 7. -/
theorem sel_eq_seven {sel : BitVec 3} (h0 : sel ≠ 0#3) (h1 : sel ≠ 1#3) (h2 : sel ≠ 2#3) (h3 : sel ≠ 3#3)
    (h4 : sel ≠ 4#3) (h5 : sel ≠ 5#3) (h6 : sel ≠ 6#3) : sel = 7#3 := by
  bv_omega

theorem encode_decodeWrite (sel : BitVec 3) : encode (decodeWrite sel lo v) = .bus (requestWord 1#1 sel lo v) := by
  unfold decodeWrite
  split_ifs with h0 h1 h2 h3 h4 h5 h6
  · subst sel; exact encode_decodeCommand lo v
  · subst sel; exact congrArg (fun w => Raw.bus (requestWord 1#1 1#3 lo w)) (configData_eq v)
  · subst sel; exact congrArg (fun w => Raw.bus (requestWord 1#1 2#3 lo w)) (statusData_eq v)
  case neg => rw [sel_eq_seven h0 h1 h2 h3 h4 h5 h6]; rfl
  all_goals subst sel; rfl

theorem encode_decodeRead (sel : BitVec 3) : encode (decodeRead sel lo v) = .bus (requestWord 0#1 sel lo v) := by
  unfold decodeRead
  split_ifs with h0 h1 h2 h3 h4 h5 h6
  case neg => rw [sel_eq_seven h0 h1 h2 h3 h4 h5 h6]; rfl
  all_goals subst sel; rfl

end encode

theorem encode_decodeBus (w : RequestWord) : encode (decodeBus w) = .bus w := by
  have hw := requestWord_fields w
  simp only [decodeBus]
  by_cases hwe : w.extractLsb' 37 1 = 1#1
  · rw [if_pos hwe, encode_decodeWrite, ← hwe, hw]
  · have h0 : w.extractLsb' 37 1 = 0#1 := Machine.eq_zero_of_ne_one hwe
    rw [if_neg hwe, encode_decodeRead, ← h0, hw]

theorem encode_decodeTick (c : Code) (smp : Bit) : encode (decodeTick c smp) = .tick c smp := by
  revert c smp; decide

/-- Settles O2: a request word is made up of its fields, and each phase code selects its own tick rule. -/
theorem encodeOfDecodeIsIdentity : Obligations.EncodeOfDecodeIsIdentity := by
  intro r
  cases r with
  | bus w => exact encode_decodeBus w
  | tick c smp => exact encode_decodeTick c smp

/-! Bytes. -/

/-- The model's byte layout loses no bit of a request word or a tick word (log entry 8). -/
theorem rawOfBytes_bytesOfRaw (r : Raw) : rawOfBytes (bytesOfRaw r) = .ok r := by
  cases r with
  | tick c smp => revert c smp; decide
  | bus w =>
    have hpad : (0#2 ++ w.extractLsb' 32 6).extractLsb' 6 2 = 0#2 := by
      rw [extract_append_high _ _ _ (by decide), extract_all]
    have htop : (0#2 ++ w.extractLsb' 32 6).extractLsb' 0 6 = w.extractLsb' 32 6 := by
      rw [extract_append_low _ _ _ (by decide), extract_all]
    have hw : w.extractLsb' 32 6 ++ w.extractLsb' 24 8 ++ w.extractLsb' 16 8 ++ w.extractLsb' 8 8 ++
        w.extractLsb' 0 8 = w := by
      rw [extract_append_extract w 24 8 6, extract_append_extract w 16 8 14, extract_append_extract w 8 8 22,
        extract_append_extract w 0 8 30, extract_all]
    simp only [bytesOfRaw, rawOfBytes, hpad, htop, hw, if_true]

theorem rawOfBytes_of_length {bs : List Byte} (h1 : bs.length ≠ 1) (h5 : bs.length ≠ 5) :
    rawOfBytes bs = .error (.length bs.length) := by
  unfold rawOfBytes
  split
  · exact absurd rfl h1
  · exact absurd rfl h5
  · rfl

/-- The upper bits of a byte are not all 0 in a byte that does not fit into the lower ones. -/
theorem extract_high_ne_zero {b : Byte} (m n : Nat) (hn : m + n = 8) (h : 2 ^ m ≤ b.toNat) : b.extractLsb' m n ≠ 0 := by
  intro h0
  have hz : b.toNat / 2 ^ m % 2 ^ n = 0 := by
    simpa [Nat.shiftRight_eq_div_pow] using congrArg BitVec.toNat h0
  have hlt : b.toNat / 2 ^ m < 2 ^ n :=
    Nat.div_lt_of_lt_mul (by rw [← Nat.pow_add, hn]; exact b.isLt)
  have hpos : 0 < b.toNat / 2 ^ m := Nat.div_pos h (Nat.two_pow_pos m)
  rw [Nat.mod_eq_of_lt hlt] at hz
  omega

/-- Settles O3: the byte layout keeps the encoder's words, and `rawOfBytes` rejects lengths and padding by name. -/
theorem bytesDecodeOrAreRejectedByName : Obligations.BytesDecodeOrAreRejectedByName := by
  refine ⟨fun i => ?roundTrip, fun bs h1 h5 => ?length, fun b h => ?padding1, fun b0 b1 b2 b3 b4 h => ?padding5⟩
  case roundTrip =>
    rw [decodeBytes, rawOfBytes_bytesOfRaw]
    exact congrArg Except.ok (decodeOfEncodeIsIdentity i)
  case length => rw [decodeBytes, rawOfBytes_of_length h1 h5]
  case padding1 =>
    have hpad : b.extractLsb' 4 4 ≠ 0#4 := extract_high_ne_zero 4 4 rfl h
    rw [decodeBytes, rawOfBytes, if_neg hpad]
  case padding5 =>
    have hpad : b4.extractLsb' 6 2 ≠ 0#2 := extract_high_ne_zero 6 2 rfl h
    rw [decodeBytes, rawOfBytes, if_neg hpad]

/-- Settles O4: each word is closed, so its fields are computed. -/
theorem tableWordsDecode : Obligations.TableWordsDecode := by
  unfold Obligations.TableWordsDecode
  decide

namespace Machine

/-- A word of two fields, as the shifted upper one or the lower one. -/
theorem setWidth_append_eq_or {m n : Nat} (w : Nat) (x : BitVec m) (y : BitVec n) :
    (x ++ y).setWidth w = (x.setWidth w <<< n) ||| y.setWidth w := by
  apply BitVec.eq_of_getLsbD_eq
  intro i hi
  simp only [BitVec.getLsbD_setWidth, BitVec.getLsbD_append, BitVec.getLsbD_or, BitVec.getLsbD_shiftLeft, hi,
    decide_true, Bool.true_and]
  by_cases hn : i < n
  · simp [hn]
  · simp [hn, BitVec.getLsbD_of_ge y i (not_lt.mp hn), show i - n < w by omega]

/-- The word that SETCFG composes by shifts is the one of its fields, the ignored bits 0 (00_scope.md rule R11). -/
theorem setCfgWord_eq (thr : Byte) (ie lvl : Bit) (timeout : BitVec 16) :
    (timeout.setWidth 32 <<< 16) ||| (lvl.setWidth 32 <<< 9) ||| (ie.setWidth 32 <<< 8) ||| thr.setWidth 32 =
      timeout ++ 0#6 ++ lvl ++ ie ++ thr := by
  refine Eq.trans ?_ (BitVec.setWidth_eq (timeout ++ 0#6 ++ lvl ++ ie ++ thr))
  simp only [setWidth_append_eq_or, BitVec.shiftLeft_or_distrib, ← BitVec.shiftLeft_add, BitVec.setWidth_zero,
    BitVec.or_zero]

/-- Settles O5: the composed word is the CONFIG layout of the four operands. -/
theorem setCfgWritesItsFields : Obligations.SetCfgWritesItsFields := by
  refine fun thr ie lvl timeout => ⟨0x04#5, _, rfl, ?_⟩
  rw [setCfgWord_eq]
  exact (decodeBus_hostWrite _ _).trans (decodeWrite_config 0#2 ..)

end Machine
end Sys2Proof
end

section
/-! The machine's invariant (10_state.md rules R24 to R28, 60_exceptions.md rules R201 and R204): it holds at reset, and
every tick of a legal build and every step of the machine keep it. -/

namespace Sys2Proof.Machine

open Sys2Proof.Safety

/-! The invariant by PHASE and RESULT. -/

section parts
variable (p : Params) (s : State)

/-- The range of CNT in PHASE `r` (10_state.md rule R24). -/
def CntRange : Phase → Prop
  | .idle => s.cnt = 0#17
  | .startLow => s.cnt.toNat < p.tStartLow
  | .startHigh => s.cnt.toNat < p.tStartHigh
  | .ackLow => s.cnt.toNat ≤ p.toAckLow + p.slack
  | .ackHigh => 1 ≤ s.cnt.toNat ∧ s.cnt.toNat ≤ p.toAckHigh + p.slack
  | .bitMark => 1 ≤ s.cnt.toNat ∧ s.cnt.toNat ≤ p.toMark + p.slack
  | .bitHigh => 1 ≤ s.cnt.toNat ∧ s.cnt.toNat ≤ p.toHigh + p.slack
  | .measure => s.cnt.toNat ≤ s.mtoS.toNat + p.slack

theorem cntInPhase_iff : CntInPhase p s ↔ CntRange p s s.phase := by
  cases h : s.phase <;> simp [CntInPhase, CntRange, h]

/-- The range of BITIDX in PHASE `r` (10_state.md rule R25, 43_frame_sampler.md rule R145). -/
def BitidxRange : Phase → Prop
  | .idle | .measure => s.bitidx.toNat ≤ 40
  | .startLow | .startHigh | .ackLow | .ackHigh => s.bitidx = 0#6
  | .bitMark | .bitHigh => s.bitidx.toNat < 40

/-- The bits of SHIFT that are not yet sampled are 0 (43_frame_sampler.md rules R146 and R147). -/
def UnsampledZero : Prop := ∀ j : Fin 40, j.val + s.bitidx.toNat < 40 → s.shift.getLsbD j.val = false

variable {s} in
theorem BitidxRange.le {r : Phase} (h : BitidxRange s r) : s.bitidx.toNat ≤ 40 := by
  cases r with
  | idle | measure => exact h
  | startLow | startHigh | ackLow | ackHigh => rw [show s.bitidx = 0#6 from h]; decide
  | bitMark | bitHigh => exact le_of_lt h

theorem bitsInPhase_iff : BitsInPhase s ↔ BitidxRange s s.phase ∧ UnsampledZero s := by
  constructor
  · rintro ⟨hle, h0, hlt, hz⟩
    refine ⟨?_, hz⟩
    cases h : s.phase <;> simp_all [BitidxRange]
  · rintro ⟨hr, hz⟩
    refine ⟨hr.le, ?_, ?_, hz⟩ <;> cases h : s.phase <;> simp_all [BitidxRange]

/-- What the state records beside the RESULT `r` (30_encoding.md rule R83, 60_exceptions.md rule R204). -/
def RecordOf : Result → Prop
  | .none => s.errphase = 0#3
  | .valid => s.errphase = 0#3 ∧ s.bitidx = 40#6 ∧ s.data = s.shift ∧ frameCheck s.shift = true
  | .checksumMismatch => s.errphase = 0#3 ∧ s.bitidx = 40#6 ∧ frameCheck s.shift = false
  | .responseTimeout => s.bitidx = 0#6 ∧
      (s.errphase = 3#3 ∧ s.count.toNat = p.toAckLow + 1 ∨ s.errphase = 4#3 ∧ s.count.toNat = p.toAckHigh + 1)
  | .bitTimeout => s.bitidx.toNat < 40 ∧
      (s.errphase = 5#3 ∧ s.count.toNat = p.toMark + 1 ∨ s.errphase = 6#3 ∧ s.count.toNat = p.toHigh + 1)
  | .measureOk => s.errphase = 0#3 ∧ s.count.toNat ≤ s.mtoS.toNat + p.slack
  | .measureTimeout => s.errphase = 7#3 ∧ s.count.toNat = s.mtoS.toNat + 1

theorem outcomeRecorded_iff :
    OutcomeRecorded p s ↔
      (s.phase ≠ .idle → s.done = 0#1 ∧ s.result = .none) ∧ (s.done = 1#1 → s.result ≠ .none) ∧
        RecordOf p s s.result := by
  cases h : s.result <;> simp [OutcomeRecorded, RecordOf, h]

/-- The invariant of a running command: nothing is recorded yet (60_exceptions.md rule R201). -/
structure Running : Prop where
  cnt : CntRange p s s.phase
  bitidx : BitidxRange s s.phase
  unsampled : UnsampledZero s
  done : s.done = 0#1
  result : s.result = .none
  errphase : s.errphase = 0#3
  data : DataChecked s

/-- The invariant in IDLE: the record of the last command (60_exceptions.md rule R204). -/
structure Resting : Prop where
  cnt : s.cnt = 0#17
  bitidx : s.bitidx.toNat ≤ 40
  unsampled : UnsampledZero s
  done : s.done = 1#1 → s.result ≠ .none
  record : RecordOf p s s.result
  data : DataChecked s

variable {p s}

theorem inv_iff_running (h : s.phase ≠ .idle) : Inv p s ↔ Running p s := by
  rw [Safety.Inv, cntInPhase_iff, bitsInPhase_iff, outcomeRecorded_iff]
  constructor
  · rintro ⟨hc, ⟨hb, hz⟩, ⟨hrun, -, hrec⟩, hd⟩
    obtain ⟨hdone, hres⟩ := hrun h
    rw [hres] at hrec
    exact ⟨hc, hb, hz, hdone, hres, hrec, hd⟩
  · intro r
    refine ⟨r.cnt, ⟨r.bitidx, r.unsampled⟩, ⟨fun _ => ⟨r.done, r.result⟩, fun hd => ?_, ?_⟩, r.data⟩
    · rw [r.done] at hd; cases hd
    · rw [r.result]; exact r.errphase

theorem inv_iff_resting (h : s.phase = .idle) : Inv p s ↔ Resting p s := by
  rw [Safety.Inv, cntInPhase_iff, bitsInPhase_iff, outcomeRecorded_iff, h]
  constructor
  · rintro ⟨hc, ⟨hb, hz⟩, ⟨-, hdone, hrec⟩, hd⟩
    exact ⟨hc, hb, hz, hdone, hrec, hd⟩
  · intro r
    exact ⟨r.cnt, ⟨r.bitidx, r.unsampled⟩, ⟨fun hn => absurd rfl hn, r.done, r.record⟩, r.data⟩

end parts

/-! Reset. -/

theorem reset_inv : Inv params State.reset :=
  (inv_iff_resting rfl).mpr
    { cnt := rfl
      bitidx := by decide
      unsampled := fun _ _ => BitVec.getLsbD_zero
      done := fun h => absurd h (by decide)
      record := rfl
      data := frameCheck_zero }

/-- Settles O55: the reset state is IDLE with nothing recorded and the zero frame. -/
theorem resetMeetsTheInvariant : Obligations.ResetMeetsTheInvariant := reset_inv

/-! Ticks. -/

section ticks
variable {p : Params} {smp : Bit} {q : WaitPhase} {s : State}

theorem CntRange.le_waitBound (h : CntRange p s q.phase) : s.cnt.toNat ≤ waitBound p s q + p.slack := by
  cases q with
  | ackLow | measure => exact h
  | ackHigh | bitMark | bitHigh => exact h.2

theorem cntRange_of_le_waitBound (h1 : 1 ≤ s.cnt.toNat) (h : s.cnt.toNat ≤ waitBound p s q + p.slack) :
    CntRange p s q.phase := by
  cases q with
  | ackLow | measure => exact h
  | ackHigh | bitMark | bitHigh => exact ⟨h1, h⟩

theorem Running.cntIn (h : Running p s) {r : Phase} (hs : s.phase = r) : CntRange p s r := hs ▸ h.cnt

theorem Running.bitidxIn (h : Running p s) {r : Phase} (hs : s.phase = r) : BitidxRange s r := hs ▸ h.bitidx

/-- Another CNT in the range of its PHASE. -/
theorem Running.setCnt (h : Running p s) {c : TickCount} (hc : CntRange p (s.setCnt c) s.phase) :
    Running p (s.setCnt c) := { h with cnt := hc }

theorem Running.setCount (h : Running p s) (c : TickCount) : Running p (s.setCount c) := { h with }

/-- Another wait of the same command, entered with its first sample counted (40_pulse_timer.md rule R104). -/
theorem Running.chain (h : Running p s) (c : TickCount) (hq : 1 ≤ waitBound p s q) (hb : BitidxRange s q.phase) :
    Inv p (((s.setCount c).enter q.phase).setCnt 1#17) :=
  (inv_iff_running q.phase_ne_idle).mpr
    { h with
      cnt := cntRange_of_le_waitBound (s := ((s.setCount c).enter q.phase).setCnt 1#17) le_rfl
        (by cases q <;> exact Nat.le_add_right_of_le hq)
      bitidx := by cases q <;> exact hb }

/-- The end of a command with its record (60_exceptions.md rules R202 and R203). -/
theorem Running.endCommand (h : Running p s) {r : Result} (e : Code) (hr : r ≠ .none)
    (hrec : RecordOf p (s.endCommand r e) r) : Inv p (s.endCommand r e) :=
  (inv_iff_resting rfl).mpr
    { cnt := rfl
      bitidx := h.bitidx.le
      unsampled := h.unsampled
      done := fun _ => hr
      record := hrec
      data := h.data }

/-- What FAIL(q) records: COUNT one above the bound, and BITIDX in the range of the phase that failed. -/
theorem recordOf_failWait (hp : p.wf) (hb : BitidxRange s q.phase) :
    RecordOf p ((s.setCount (BitVec.ofNat 17 (waitBound p s q + 1))).failWait q) (timeoutResult q) := by
  have hle := waitBound_le hp s q
  have hcount : (BitVec.ofNat 17 (waitBound p s q + 1)).toNat = waitBound p s q + 1 := by
    rw [BitVec.toNat_ofNat]; omega
  cases q with
  | ackLow | bitMark => exact ⟨hb, .inl ⟨rfl, hcount⟩⟩
  | ackHigh | bitHigh => exact ⟨hb, .inr ⟨rfl, hcount⟩⟩
  | measure => exact ⟨rfl, hcount⟩

/-- A wait's sample at its level counts within the range, or ends the command with its record. -/
theorem Running.waitTick_self (hp : p.wf) (h : Running p s) (hq : s.phase = q.phase) :
    Inv p (waitTick p (waitLevel s q) q s) := by
  have hb := waitBound_le hp s q
  have hs := p.slack_eq ▸ p.order.slack_le_one
  have hc : s.cnt.toNat ≤ waitBound p s q + p.slack := (h.cntIn hq).le_waitBound
  by_cases hlt : s.cnt.toNat < waitBound p s q + p.slack
  · have hcnt : (s.setCnt (s.cnt + 1#17)).cnt.toNat = s.cnt.toNat + 1 := toNat_succ (by omega)
    rw [waitTick_self_count rfl hb hlt]
    refine (inv_iff_running (s := s.setCnt _) (hq ▸ q.phase_ne_idle)).mpr (h.setCnt (hq ▸ ?_))
    exact cntRange_of_le_waitBound (by omega) (by rw [hcnt, waitBound_setCnt]; exact hlt)
  · rw [waitTick_self_timeout rfl hb (by omega)]
    exact (h.setCount _).endCommand _ (timeoutResult_ne_none q) (recordOf_failWait hp (h.bitidxIn hq))

/-- A driven phase counts within its range, or enters the next with CNT 0. -/
theorem Running.driveTick (h : Running p s) {d : Nat} {r : Phase} (hd : d ≤ 65535) (hlt : s.cnt.toNat < d)
    (hs : s.phase ≠ .idle) (hr : r ≠ .idle) (hcount : ∀ t : State, t.cnt.toNat < d → CntRange p t s.phase)
    (henter : CntRange p (s.enter r) r) (hb : BitidxRange s r) : Inv p (driveTick d r s) := by
  have hcnt : (s.setCnt (s.cnt + 1#17)).cnt.toNat = s.cnt.toNat + 1 := toNat_succ (by omega)
  by_cases hc : (s.cnt + 1#17).toNat = d
  · rw [driveTick_enter hc]
    exact (inv_iff_running (s := s.enter r) hr).mpr { h with cnt := henter, bitidx := by cases r <;> exact hb }
  · rw [driveTick_count hc]
    have hne : s.cnt.toNat + 1 ≠ d := hcnt ▸ hc
    have hr : CntRange p (s.setCnt (s.cnt + 1#17)) s.phase := hcount _ (by omega)
    exact (inv_iff_running (s := s.setCnt (s.cnt + 1#17)) hs).mpr (h.setCnt hr)

/-- The bits below a written one are still 0 (43_frame_sampler.md rules R144 to R147). -/
theorem UnsampledZero.storeBit (h : UnsampledZero s) (hi : s.bitidx.toNat < 40) (b : Bit) :
    UnsampledZero (s.storeBit b) := by
  intro j hj
  have hn : (s.bitidx + 1#6).toNat = s.bitidx.toNat + 1 :=
    BitVec.toNat_add_of_lt (show s.bitidx.toNat + 1 < 64 by omega)
  have hj : j.val + (s.bitidx.toNat + 1) < 40 := hn ▸ hj
  rw [State.storeBit_shift, getLsbD_placeBit _ b hi, if_neg (by omega)]
  exact h j (by omega)

/-- BIT_HIGH's sample is stored, and BITIDX counts it. -/
theorem Running.storeBit (h : Running p s) (hs : s.phase = .bitHigh) (hi : (s.bitidx + 1#6).toNat ≠ 40) (b : Bit) :
    Running p (s.storeBit b) := by
  have hlt : s.bitidx.toNat < 40 := h.bitidxIn hs
  have hn : (s.bitidx + 1#6).toNat = s.bitidx.toNat + 1 :=
    BitVec.toNat_add_of_lt (show s.bitidx.toNat + 1 < 64 by omega)
  have hb : (s.bitidx + 1#6).toNat < 40 := by omega
  exact { h with unsampled := h.unsampled.storeBit hlt b, bitidx := (show BitidxRange _ s.phase by rw [hs]; exact hb) }

/-- FRAME_END behind bit 39: SHIFT passes the checksum and becomes DATA, or DATA stays
(44_checksum_validator.md rules R161 and R162). -/
theorem frameEnd_inv (hi : s.bitidx = 40#6) (hz : UnsampledZero s) (hd : DataChecked s) : Inv p s.frameEnd := by
  have hle : s.bitidx.toNat ≤ 40 := by rw [hi]; decide
  cases hc : frameCheck s.shift with
  | false =>
    rw [frameEnd_mismatch hc]
    exact (inv_iff_resting rfl).mpr
      { cnt := rfl, bitidx := hle, unsampled := hz, done := fun _ => nofun, record := ⟨rfl, hi, hc⟩, data := hd }
  | true =>
    rw [frameEnd_valid hc]
    exact (inv_iff_resting rfl).mpr
      { cnt := rfl, bitidx := hle, unsampled := hz, done := fun _ => nofun, record := ⟨rfl, hi, rfl, hc⟩, data := hc }

/-- BIT_HIGH completes: the next bit's marker begins, or the frame ends (43_frame_sampler.md rule R142). -/
theorem Running.bitHigh_done (hp : p.wf) (h : Running p s) (hs : s.phase = .bitHigh) :
    Inv p (waitTick p 0#1 .bitHigh s) := by
  have ⟨_, _, _, _, hmark, _, hn, _⟩ := hp
  by_cases hi : (s.bitidx + 1#6).toNat = 40
  · rw [waitTick_bitHigh_last (hi.trans hn.symm)]
    exact frameEnd_inv (s := (s.setCount s.cnt).storeBit _) (BitVec.eq_of_toNat_eq hi)
      ((h.setCount s.cnt).unsampled.storeBit (h.bitidxIn hs) _) h.data
  · rw [waitTick_bitHigh_done hmark.1 (hn ▸ hi)]
    have hstore := (h.setCount s.cnt).storeBit hs hi (bitOf s.thrS s.cnt)
    have hb : BitidxRange ((s.setCount s.cnt).storeBit (bitOf s.thrS s.cnt)) .bitHigh := hstore.bitidxIn hs
    exact hstore.chain (q := .bitMark) s.cnt hmark.1 hb

/-- A wait tick keeps the invariant: at its level by `waitTick_self`, off it by the wait's completion. -/
theorem Running.waitTick_inv (hp : p.wf) (h : Running p s) (q : WaitPhase) (hq : s.phase = q.phase) (smp : Bit) :
    Inv p (waitTick p smp q s) := by
  have ⟨_, _, _, hah, hmark, hhigh, _⟩ := hp
  by_cases hl : smp = waitLevel s q
  · exact hl ▸ h.waitTick_self hp hq
  cases q with
  | ackLow =>
    rw [eq_one_of_ne_zero hl, waitTick_ackLow_done hah.1]
    exact h.chain (q := .ackHigh) s.cnt hah.1 (h.bitidxIn (r := .ackLow) hq)
  | ackHigh =>
    have hi : s.bitidx = 0#6 := h.bitidxIn hq
    rw [eq_zero_of_ne_one hl, waitTick_ackHigh_done hmark.1]
    refine h.chain (q := .bitMark) s.cnt hmark.1 ?_
    show s.bitidx.toNat < 40
    rw [hi]; decide
  | bitMark =>
    rw [eq_one_of_ne_zero hl, waitTick_bitMark_done hhigh.1]
    exact h.chain (q := .bitHigh) s.cnt hhigh.1 (h.bitidxIn (r := .bitMark) hq)
  | bitHigh => rw [eq_zero_of_ne_one hl]; exact h.bitHigh_done hp hq
  | measure =>
    rw [waitTick_measure_done hl]
    exact (h.setCount s.cnt).endCommand _ nofun ⟨rfl, show s.cnt.toNat ≤ _ from h.cntIn hq⟩

theorem tick_inv (hp : p.wf) (h : Inv p s) (smp : Bit) : Inv p (tick p smp s) := by
  have ⟨hlow, hhigh, _⟩ := hp
  by_cases hs : s.phase = .idle
  · rwa [tick_idle hs]
  have hr := (inv_iff_running hs).mp h
  match hq : s.phase with
  | .idle => exact absurd hq hs
  | .startLow =>
    rw [tick_startLow smp hq]
    exact hr.driveTick hlow.2 (hr.cntIn hq) hs nofun (fun _ ht => hq ▸ ht) hhigh.1 (hr.bitidxIn (r := .startLow) hq)
  | .startHigh =>
    rw [tick_startHigh smp hq]
    exact hr.driveTick hhigh.2 (hr.cntIn hq) hs nofun (fun _ ht => hq ▸ ht) (Nat.zero_le _)
      (hr.bitidxIn (r := .startHigh) hq)
  | .ackLow => rw [tick_wait (q := .ackLow) smp hq]; exact hr.waitTick_inv hp .ackLow hq smp
  | .ackHigh => rw [tick_wait (q := .ackHigh) smp hq]; exact hr.waitTick_inv hp .ackHigh hq smp
  | .bitMark => rw [tick_wait (q := .bitMark) smp hq]; exact hr.waitTick_inv hp .bitMark hq smp
  | .bitHigh => rw [tick_wait (q := .bitHigh) smp hq]; exact hr.waitTick_inv hp .bitHigh hq smp
  | .measure => rw [tick_wait (q := .measure) smp hq]; exact hr.waitTick_inv hp .measure hq smp

end ticks

/-- Settles O57: a tick of a running command counts within the range of its phase, moves on with the first sample of a
chained wait counted, or ends the command with its record. -/
theorem everyTickKeepsTheInvariant : Obligations.EveryTickKeepsTheInvariant := fun _ smp _ hp h => tick_inv hp h smp

/-! Steps. -/

section steps
variable {p : Params} {s t : State}

/-- A write may clear DONE at any time (45_host_interface.md rule R177). -/
theorem inv_clearFlags (h : Inv p s) (clrCmderr clrDone : Bit) : Inv p (s.clearFlags clrCmderr clrDone) := by
  have hdone : (s.clearFlags clrCmderr clrDone).done = 0#1 ∨ (s.clearFlags clrCmderr clrDone).done = s.done := by
    rw [State.clearFlags_done]
    split
    · exact .inl rfl
    · exact .inr rfl
  by_cases hs : s.phase = .idle
  · have hr := (inv_iff_resting hs).mp h
    refine (inv_iff_resting (s := s.clearFlags clrCmderr clrDone) hs).mpr { hr with done := fun hd => ?_ }
    obtain hz | he := hdone
    · rw [hz] at hd; cases hd
    · exact hr.done (he ▸ hd)
  · have hr := (inv_iff_running hs).mp h
    refine (inv_iff_running (s := s.clearFlags clrCmderr clrDone) hs).mpr { hr with done := ?_ }
    exact hdone.elim id (·.trans hr.done)

/-- READ acceptance starts a command with nothing sampled (45_host_interface.md rule R173). -/
theorem inv_acceptRead (hp : p.wf) (h : DataChecked s) : Inv p s.acceptRead := by
  have ⟨hlow, _⟩ := hp
  exact (inv_iff_running Phase.noConfusion).mpr
    { cnt := hlow.1, bitidx := rfl, unsampled := fun _ _ => BitVec.getLsbD_zero, done := rfl, result := rfl,
      errphase := rfl, data := h }

/-- MEASURE acceptance keeps the frame of the last READ (45_host_interface.md rule R174). -/
theorem inv_acceptMeasure (hr : Resting p s) : Inv p s.acceptMeasure :=
  (inv_iff_running Phase.noConfusion).mpr
    { cnt := Nat.zero_le _, bitidx := hr.bitidx, unsampled := hr.unsampled, done := rfl, result := rfl,
      errphase := rfl, data := hr.data }

theorem HostEffect.inv (hp : p.wf) (he : HostEffect s t) (h : Inv p s) : Inv p t := by
  cases he with
  | same | reject | config | word => exact h
  | read hs => exact inv_acceptRead hp ((inv_iff_resting hs).mp h).data
  | measure hs => exact inv_acceptMeasure ((inv_iff_resting hs).mp h)
  | status => exact inv_clearFlags h _ _

end steps

/-- Settles O56: a tick by `tick_inv`, a host access by its effect, a reset by `reset_inv`; a clock touches no part of
the invariant. -/
theorem everyStepKeepsTheInvariant : Obligations.EveryStepKeepsTheInvariant := by
  intro s t h hstep
  obtain ⟨-, rfl⟩ | ⟨smp, es, -, rfl⟩ | ⟨-, es, -, -, -, he⟩ | ⟨es, -, rfl⟩ | ⟨smp, es, -, rfl⟩ := step_cases hstep
  · exact tick_inv (s := s.countDraw) params_wf h _
  · exact tick_inv (s := s.setInputs es) params_wf h smp
  · exact he.inv (s := s.setInputs es) params_wf h
  · exact reset_inv
  · rcases clockEdge_cases params smp (s.setInputs es) with e | e <;> rw [e] <;> exact h

/-- Settles O58: DATA changes only to a SHIFT that passes the checksum, or to 0 by a reset. -/
theorem dataAlwaysPassesTheChecksum : Obligations.DataAlwaysPassesTheChecksum := by
  intro s t hs h
  by_cases hd : t.data = s.data
  · rwa [hd]
  cases hr : nextIsReset s with
  | false =>
    obtain ⟨-, -, u, hu, rfl⟩ := step_endsValid_of_data_ne h hr hd
    exact hu
  | true =>
    obtain ⟨es, hi⟩ : ∃ es, s.inputs = .reset :: es := by
      rw [nextIsReset, beq_iff_eq, List.head?_eq_some_iff] at hr
      exact hr
    rw [step_reset hi] at h
    injection h with h
    subst t
    exact frameCheck_zero

end Sys2Proof.Machine
end

section
/-! A READ of a sensor's frame (30_encoding.md rules R84 and R85, 43_frame_sampler.md, 70_reset_and_hazards.md rule
R243): each pulse is one wait, each bit is stored in its place, and the command ends at the sample behind the last
pulse. -/

namespace Sys2Proof.Machine

open Sys2Proof.Safety

/-! One bit. -/

section bit
variable {p : Params} {smp : Bit} {q : WaitPhase} {s u : State} {n : Nat}

/-- A pulse whose first sample is counted by the chained entry of its wait (40_pulse_timer.md rule R104). -/
theorem ticks_pulse (hp : p.wf) (h : tick p smp s = (u.enter q.phase).setCnt 1#17) (hl : smp = waitLevel u q)
    (h1 : 1 ≤ n) (hn : n ≤ waitBound p u q + p.slack) :
    ticks p (List.replicate n smp) s = (u.enter q.phase).setCnt (BitVec.ofNat 17 n) := by
  obtain ⟨k, rfl⟩ := Nat.exists_eq_add_of_le h1
  have hlevel : waitLevel ((u.enter q.phase).setCnt 1#17) q = waitLevel u q := by cases q <;> rfl
  have hbound : waitBound p ((u.enter q.phase).setCnt 1#17) q = waitBound p u q := by cases q <;> rfl
  have hcount := ticks_self_count (p := p) (smp := smp) (q := q) (s := (u.enter q.phase).setCnt 1#17) (n := k) rfl
    (hl.trans hlevel.symm) (waitBound_le hp _ q) (by rw [hbound]; exact hn)
  rw [Nat.add_comm, List.replicate_succ, ticks_cons, h, hcount, State.setCnt_cnt, BitVec.ofNat_add_ofNat, Nat.add_comm]
  rfl

/-- The samples of one bit: its marker, then its high pulse (30_encoding.md rule R85). -/
def bitSamples (b : Nat × Nat) : List Bit := List.replicate b.1 0#1 ++ List.replicate b.2 1#1

theorem length_bitSamples (b : Nat × Nat) : (bitSamples b).length = b.1 + b.2 := by simp [bitSamples]

/-- Both pulses of a bit lie within their bounds (70_reset_and_hazards.md rule R240). -/
def BitInTolerance (p : Params) (b : Nat × Nat) : Prop :=
  1 ≤ b.1 ∧ b.1 ≤ p.toMark + p.slack ∧ 1 ≤ b.2 ∧ b.2 ≤ p.toHigh + p.slack

/-- At the end of a bit's pulses: COUNT holds its marker's count, CNT its high count. -/
def State.atPulseEnd (u : State) (b : Nat × Nat) : State :=
  ((u.setCount (BitVec.ofNat 17 b.1)).enter .bitHigh).setCnt (BitVec.ofNat 17 b.2)

/-- Behind the bit, which the sample after its high pulse stores (43_frame_sampler.md rule R142). -/
def State.sampled (u : State) (b : Nat × Nat) : State :=
  ((u.atPulseEnd b).setCount (BitVec.ofNat 17 b.2)).storeBit (bitOf u.thrS (BitVec.ofNat 17 b.2))

/-- The pulses of one bit, of which the first low sample enters BIT_MARK. -/
theorem ticks_bitSamples (hp : p.wf) {b : Nat × Nat} (hb : BitInTolerance p b) {c : TickCount}
    (h : tick p 0#1 s = ((u.setCount c).enter .bitMark).setCnt 1#17) :
    ticks p (bitSamples b) s = u.atPulseEnd b := by
  have ⟨_, _, _, _, _, hhigh, _⟩ := hp
  obtain ⟨hm1, hm, hh1, hh⟩ := hb
  rw [bitSamples, ticks_append, ticks_pulse (q := .bitMark) hp h rfl hm1 hm]
  exact ticks_pulse (q := .bitHigh)
    (u := (((u.setCount c).enter .bitMark).setCnt (BitVec.ofNat 17 b.1)).setCount (BitVec.ofNat 17 b.1)) hp
    (waitTick_bitMark_done hhigh.1) rfl hh1 hh

theorem tick_atPulseEnd_next (hp : p.wf) (b : Nat × Nat) (hn : (u.bitidx + 1#6).toNat ≠ 40) :
    tick p 0#1 (u.atPulseEnd b) = ((u.sampled b).enter .bitMark).setCnt 1#17 := by
  have ⟨_, _, _, _, hmark, _, hbits, _⟩ := hp
  exact waitTick_bitHigh_done (s := u.atPulseEnd b) hmark.1 (hbits ▸ hn)

theorem tick_atPulseEnd_last (hp : p.wf) (b : Nat × Nat) (hn : (u.bitidx + 1#6).toNat = 40) :
    tick p 0#1 (u.atPulseEnd b) = (u.sampled b).frameEnd := by
  have ⟨_, _, _, _, _, _, hbits, _⟩ := hp
  exact waitTick_bitHigh_last (s := u.atPulseEnd b) (hn.trans hbits.symm)

/-- The pulses of the bits that complete a frame: behind them the READ is still in BIT_HIGH, and the next low sample
ends the frame. -/
theorem ticks_bits (hp : p.wf) (b : Nat × Nat) (bs : List (Nat × Nat)) (hb : ∀ x ∈ b :: bs, BitInTolerance p x)
    (hi : u.bitidx.toNat + (b :: bs).length = 40) {c : TickCount}
    (h : tick p 0#1 s = ((u.setCount c).enter .bitMark).setCnt 1#17) :
    (ticks p ((b :: bs).flatMap bitSamples) s).phase = .bitHigh ∧
      tick p 0#1 (ticks p ((b :: bs).flatMap bitSamples) s) = ((b :: bs).foldl State.sampled u).frameEnd := by
  induction bs generalizing b u s c with
  | nil =>
    have hlast : (u.bitidx + 1#6).toNat = 40 :=
      (BitVec.toNat_add_of_lt (show u.bitidx.toNat + 1 < 64 by simp at hi; omega)).trans hi
    rw [List.flatMap_singleton, ticks_bitSamples hp (hb b List.mem_cons_self) h]
    exact ⟨rfl, tick_atPulseEnd_last hp b hlast⟩
  | cons b' bs ih =>
    rw [List.length_cons] at hi
    have hnext : (u.bitidx + 1#6).toNat = u.bitidx.toNat + 1 :=
      BitVec.toNat_add_of_lt (show u.bitidx.toNat + 1 < 64 by omega)
    have hmore : (u.bitidx + 1#6).toNat ≠ 40 := by rw [List.length_cons] at hi; omega
    have hi' : (u.sampled b).bitidx.toNat + (b' :: bs).length = 40 :=
      (congrArg (· + (b' :: bs).length) hnext).trans (by omega)
    rw [List.flatMap_cons, ticks_append, ticks_bitSamples hp (hb b List.mem_cons_self) h, List.foldl_cons]
    exact ih b' (fun x hx => hb x (List.mem_cons_of_mem b hx)) hi' (c := (u.sampled b).count)
      (tick_atPulseEnd_next hp b hmore)

end bit

/-! The frame. -/

/-- A frame of `i` bits at the top of SHIFT, with the next one written (43_frame_sampler.md rule R144). -/
theorem placeBit_shiftLeft (f : FrameBits) {i : Nat} (hi : i < 40) (b : Bit) :
    placeBit (f <<< (40 - i)) (BitVec.ofNat 6 i) b = ((f <<< 1) ||| b.setWidth 40) <<< (39 - i) := by
  obtain ⟨k, hk⟩ : ∃ k, k = 39 - i := ⟨_, rfl⟩
  have hn : (BitVec.ofNat 6 i).toNat = i := by rw [BitVec.toNat_ofNat]; omega
  have hlt : (BitVec.ofNat 6 i).toNat < 40 := by rwa [hn]
  apply BitVec.eq_of_getLsbD_eq
  intro j hj
  rw [getLsbD_placeBit _ b hlt, hn, ← hk, show 40 - i = k + 1 by omega]
  simp only [BitVec.getLsbD_shiftLeft, BitVec.getLsbD_or, BitVec.getLsbD_setWidth, hj, decide_true, Bool.true_and]
  obtain h | rfl | h := Nat.lt_trichotomy j k
  · simp [h, h.ne, Nat.lt_succ_of_lt h]
  · simp
  · have hb : b.getLsbD (j - k) = false := BitVec.getLsbD_of_ge _ _ (by omega)
    simp [hb, h.ne', not_lt.mpr h.le, show ¬ j < k + 1 by omega, show j - k ≠ 0 by omega, show j - k < 40 by omega,
      Nat.sub_sub]

/-- The bit value of a high count that fits CNT, as a frame's last bit (43_frame_sampler.md rule R143). -/
theorem setWidth_bitOf (thr : Byte) {n : Nat} (hn : n < 2 ^ 17) :
    (bitOf thr (BitVec.ofNat 17 n)).setWidth 40 = if thr.toNat < n then 1#40 else 0#40 := by
  rw [bitOf, BitVec.toNat_ofNat, Nat.mod_eq_of_lt hn]
  split <;> rfl

theorem pulseFrame_concat (thr : Nat) (bits : List (Nat × Nat)) (b : Nat × Nat) :
    pulseFrame thr (bits ++ [b]) = (pulseFrame thr bits <<< 1) ||| (if thr < b.2 then 1#40 else 0#40) := by
  rw [pulseFrame, List.foldl_append]
  rfl

/-- The state behind the pulses `bits` of an accepted READ: SHIFT holds their bits from the top down. -/
def State.received (s : State) (bits : List (Nat × Nat)) : State :=
  { s.acceptRead with
    phase := .bitHigh, cnt := BitVec.ofNat 17 (bits.getLastD (0, 0)).2,
    count := BitVec.ofNat 17 (bits.getLastD (0, 0)).2, bitidx := BitVec.ofNat 6 bits.length,
    shift := pulseFrame s.thresh.toNat bits <<< (40 - bits.length) }

theorem received_nil (s : State) : s.received [] = s.acceptRead.enter .bitHigh := by
  have hshift : pulseFrame s.thresh.toNat [] <<< (40 - 0) = 0#40 := BitVec.zero_shiftLeft 40
  rw [State.received, List.length_nil, hshift]
  rfl

theorem foldl_sampled (s : State) {bits : List (Nat × Nat)} (hb : ∀ b ∈ bits, b.2 < 2 ^ 17) (hl : bits.length ≤ 40) :
    bits.foldl State.sampled (s.received []) = s.received bits := by
  induction bits using List.reverseRecOn with
  | nil => rfl
  | append_singleton bits b ih =>
    rw [List.length_append, List.length_singleton] at hl
    have hlen : bits.length < 40 := by simp at hl; omega
    have hlast : (bits ++ [b]).getLastD (0, 0) = b := List.getLastD_concat ..
    have hidx : BitVec.ofNat 6 bits.length + 1#6 = BitVec.ofNat 6 (bits ++ [b]).length := by
      rw [List.length_append, BitVec.ofNat_add_ofNat]; rfl
    have hshift : placeBit (pulseFrame s.thresh.toNat bits <<< (40 - bits.length)) (BitVec.ofNat 6 bits.length)
        (bitOf s.thresh (BitVec.ofNat 17 b.2)) =
          pulseFrame s.thresh.toNat (bits ++ [b]) <<< (40 - (bits ++ [b]).length) := by
      rw [placeBit_shiftLeft _ hlen, setWidth_bitOf _ (hb b (by simp)), ← pulseFrame_concat, List.length_append,
        List.length_singleton, Nat.add_sub_add_right 39 1]
    rw [List.foldl_append, ih (fun x hx => hb x (List.mem_append_left _ hx)) hlen.le]
    show (s.received bits).sampled b = s.received (bits ++ [b])
    conv_rhs => rw [State.received, hlast, ← hidx, ← hshift]
    rfl

/-! The whole READ. -/

section read
variable {p : Params} {f : SensorFrame}

theorem samples_eq (f : SensorFrame) :
    f.samples = List.replicate f.ackLow 0#1 ++ List.replicate f.ackHigh 1#1 ++ f.bits.flatMap bitSamples ++ [0#1] := rfl

/-- The acknowledgment's low pulse, of any number of samples within its bound (42_response_detector.md rule R131). -/
theorem ticks_ackLow (hp : p.wf) {s : State} (hs : s.phase = .ackLow) (hc : s.cnt = 0#17) {n : Nat}
    (hn : n ≤ p.toAckLow + p.slack) : ticks p (List.replicate n 0#1) s = s.setCnt (BitVec.ofNat 17 n) := by
  have h := ticks_self_count (p := p) (q := .ackLow) (n := n) hs rfl (waitBound_le hp s .ackLow)
    (by rw [hc]; exact (Nat.zero_add n).trans_le hn)
  rwa [hc, BitVec.zero_add] at h

/-- The acknowledgment's high pulse, whose first sample enters ACK_HIGH (42_response_detector.md rule R132). -/
theorem ticks_ackHigh (hp : p.wf) {s : State} (hs : s.phase = .ackLow) {n : Nat} (h1 : 1 ≤ n)
    (hn : n ≤ p.toAckHigh + p.slack) :
    ticks p (List.replicate n 1#1) s = ((s.setCount s.cnt).enter .ackHigh).setCnt (BitVec.ofNat 17 n) := by
  have ⟨_, _, _, hah, _⟩ := hp
  exact ticks_pulse (q := .ackHigh) (u := s.setCount s.cnt) hp
    ((tick_wait (q := .ackLow) 1#1 hs).trans (waitTick_ackLow_done hah.1)) rfl h1 hn

theorem tick_ackHigh_done (hp : p.wf) {s : State} (hs : s.phase = .ackHigh) :
    tick p 0#1 s = ((s.setCount s.cnt).enter .bitMark).setCnt 1#17 := by
  have ⟨_, _, _, _, hmark, _⟩ := hp
  exact (tick_wait (q := .ackHigh) 0#1 hs).trans (waitTick_ackHigh_done hmark.1)

/-- Behind the acknowledgment the first marker's first low sample enters BIT_MARK. -/
theorem ticks_acknowledgment (hp : p.wf) (hf : f.inTolerance p) (s : State) :
    ∃ c, tick p 0#1 (ticks p (List.replicate f.ackLow 0#1 ++ List.replicate f.ackHigh 1#1)
      (s.acceptRead.enter .ackLow)) = (((s.received []).setCount c).enter .bitMark).setCnt 1#17 := by
  obtain ⟨hlow, hhigh1, hhigh, -⟩ := hf
  refine ⟨BitVec.ofNat 17 f.ackHigh, ?_⟩
  rw [ticks_append, ticks_ackLow hp (s := s.acceptRead.enter .ackLow) rfl rfl hlow,
    ticks_ackHigh hp (s := (s.acceptRead.enter .ackLow).setCnt _) rfl hhigh1 hhigh,
    tick_ackHigh_done hp rfl, received_nil]
  rfl

/-- The run of a READ to the sample behind its last pulse: it is still in BIT_HIGH, and then the frame ends. -/
theorem ticks_read (hp : p.wf) (hf : f.inTolerance p) (s : State) {start : List Bit}
    (hstart : start.length = p.tStartLow + p.tStartHigh) :
    ∃ l, start ++ f.samples = l ++ [0#1] ∧ (ticks p l s.acceptRead).phase = .bitHigh ∧
      tick p 0#1 (ticks p l s.acceptRead) = (s.received f.bits).frameEnd := by
  have ⟨hlow, hhigh, _, _, _, hhigh', _⟩ := hp
  obtain ⟨c, hc⟩ := ticks_acknowledgment hp hf s
  obtain ⟨-, -, -, hlen, htol⟩ := hf
  have hslack := p.slack_eq ▸ p.order.slack_le_one
  have hfits : ∀ b ∈ f.bits, b.2 < 2 ^ 17 := by
    intro b hb
    obtain ⟨-, -, -, hb2⟩ := htol b hb
    have := hhigh'.2
    omega
  have hfold := foldl_sampled s hfits hlen.le
  obtain ⟨b, bs, hbits⟩ : ∃ b bs, f.bits = b :: bs := List.exists_cons_of_length_pos (by omega)
  refine ⟨start ++ (List.replicate f.ackLow 0#1 ++ List.replicate f.ackHigh 1#1) ++ f.bits.flatMap bitSamples,
    by rw [samples_eq]; simp only [List.append_assoc], ?_⟩
  rw [ticks_append, ticks_append, ticks_acceptRead_release s hlow hhigh hstart, ← hfold]
  rw [hbits] at htol hlen ⊢
  exact ticks_bits hp b bs htol (by rw [hlen]; rfl) hc

/-- A whole frame's SHIFT is committed or not by its checksum (44_checksum_validator.md rule R161). -/
theorem received_frameEnd (s : State) {bits : List (Nat × Nat)} (hl : bits.length = 40) :
    (s.received bits).frameEnd =
      { s.acceptRead with
        phase := .idle, cnt := 0#17, shift := pulseFrame s.thresh.toNat bits, bitidx := 40#6,
        count := BitVec.ofNat 17 (bits.getLastD (0, 0)).2, done := 1#1, errphase := 0#3,
        result := if frameCheck (pulseFrame s.thresh.toNat bits) then .valid else .checksumMismatch,
        data := if frameCheck (pulseFrame s.thresh.toNat bits) then pulseFrame s.thresh.toNat bits else s.data } := by
  have hshift : (s.received bits).shift = pulseFrame s.thresh.toNat bits :=
    (congrArg (fun n => pulseFrame s.thresh.toNat bits <<< (40 - n)) hl).trans (BitVec.shiftLeft_zero _)
  have hidx : (s.received bits).bitidx = 40#6 := congrArg (BitVec.ofNat 6) hl
  cases hc : frameCheck (pulseFrame s.thresh.toNat bits) with
  | false => rw [frameEnd_mismatch (hshift ▸ hc), ← hshift, ← hidx]; rfl
  | true => rw [frameEnd_valid (hshift ▸ hc), ← hshift, ← hidx]; rfl

/-- A run that has not ended has not ended before either: IDLE stays IDLE (45_host_interface.md rule R188). -/
theorem ticks_take_ne_idle {l : List Bit} {s : State} (h : (ticks p l s).phase ≠ .idle) (k : Nat) :
    (ticks p (l.take k) s).phase ≠ .idle := by
  intro hk
  refine h ?_
  rw [← List.take_append_drop k l, ticks_append, ticks_idle _ hk]
  exact hk

theorem length_samples (f : SensorFrame) :
    f.samples.length = (f.ackLow + 1) + f.ackHigh + (f.bits.map (fun b => b.1 + b.2)).sum := by
  rw [samples_eq]
  simp only [List.length_append, List.length_replicate, List.length_flatMap, length_bitSamples, List.length_singleton]
  omega

end read

/-- Settles O60: the run to the sample behind the last pulse is still in BIT_HIGH, and that sample ends the frame. -/
theorem readDecodesTheSensorsFrame : Obligations.ReadDecodesTheSensorsFrame := by
  intro p s start f hp hf hstart
  have ⟨_, _, _, hbits, _⟩ := hf
  obtain ⟨l, hl, hph, hend⟩ := ticks_read hp hf s hstart
  refine ⟨?final, ?length, fun k hk => ?running⟩
  case final => rw [hl, ticks_append, ticks_cons, ticks_nil, hend, received_frameEnd s hbits]
  case length => rw [List.length_append, hstart, length_samples]; omega
  case running =>
    rw [hl, List.length_append, List.length_singleton] at hk
    rw [hl, List.take_append_of_le_length (Nat.le_of_lt_succ hk)]
    exact ticks_take_ne_idle (by rw [hph]; decide) k

end Sys2Proof.Machine
end

section
/-! One step by the kind of its event: what runs, what is declined, and what a step can make of PHASE and of the record
of the last command (00_scope.md rule R8, 20_memory.md rule R51, 60_exceptions.md rules R200, R204 and R206). -/

namespace Sys2Proof.Machine

open Sys2Proof.Safety

/-! What runs. -/

theorem step_nil_decode {s : State} (h : s.inputs = []) :
    step s = exec (decodeTick s.phase.code (Config.freeSample s.draws)) s.countDraw := by
  simp only [step, fetch, h, decode]

/-- Settles O6: the step of each kind of event, with its word decoded. -/
theorem stepRunsTheDecodedInstruction : Obligations.StepRunsTheDecodedInstruction :=
  ⟨fun _ _ _ => step_access, fun _ _ _ hi => step_tick_decode hi rfl, fun _ => step_nil_decode⟩

section placed
variable (s : State)

/-- A word that is placed stands at the head of the events (log entry 4). -/
theorem withFetchWord_of_ok {nbits w : Nat} {r : Raw} (h : rawOfBytes (tableBytes nbits w) = .ok r) :
    s.withFetchWord nbits w = s.withRaw r := by
  simp only [State.withFetchWord, State.placeTableWord, h]

/-- A request word is that of the access made of its fields (30_encoding.md rule R70). -/
theorem word_of_fields (w : RequestWord) :
    Access.word ⟨32, w.extractLsb' 37 1, w.extractLsb' 32 5, w.extractLsb' 0 32⟩ = w := by
  have hoff : w.extractLsb' 37 1 ++ w.extractLsb' 32 5 = w.extractLsb' 32 6 := extract_append_extract w 32 5 1
  have hdata : w.extractLsb' 32 6 ++ w.extractLsb' 0 32 = w :=
    (extract_append_extract w 0 32 6).trans (extract_all w)
  exact (congrArg (fun x : BitVec 6 => x ++ w.extractLsb' 0 32) hoff).trans hdata

theorem step_withRaw_bus (r : RequestWord) : step (s.withRaw (.bus r)) = exec (decodeBus r) s := by
  rw [step_access (s := s.withRaw (.bus r)) rfl rfl, word_of_fields]
  rfl

theorem step_withRaw_tick (c : Code) (smp : Bit) :
    step (s.withRaw (.tick c smp)) = exec (decodeTick c smp) { s with phase := Phase.ofCode c } := by
  rw [step_tick_decode (s := s.withRaw (.tick c smp)) (q := Phase.ofCode c) rfl rfl, Phase.code_ofCode]
  rfl

end placed

/-- Settles O7: the placed word is the head event, which the step takes off again. -/
theorem placedWordRunsNext : Obligations.PlacedWordRunsNext := by
  refine ⟨fun s nbits w r h => ?bus, fun s nbits w c smp h => ?tick⟩
  case bus => rw [withFetchWord_of_ok s h, step_withRaw_bus]
  case tick => rw [withFetchWord_of_ok s h, step_withRaw_tick]

/-! What is declined. -/

/-- Every instruction answers a next state (60_exceptions.md rule R200). -/
theorem exec_total (i : Instr) (s : State) : ∃ t, exec i s = .next t := by
  cases i <;> exact ⟨_, rfl⟩

/-- Settles O9: of the five kinds of events only an access of another width has no next state. -/
theorem onlyOtherWidthsAreDeclined : Obligations.OnlyOtherWidthsAreDeclined := by
  refine ⟨exec_total, fun s => ?_⟩
  match hi : s.inputs with
  | [] => exact .inl ⟨_, step_nil hi⟩
  | .tick smp :: es => exact .inl ⟨_, step_tick hi⟩
  | .reset :: es => exact .inl ⟨_, step_reset hi⟩
  | .clock smp :: es => exact .inl ⟨_, step_clock hi⟩
  | .access a :: es =>
    by_cases hw : a.width = 32
    · rw [step_access hi hw]
      exact .inl (exec_total _ _)
    · exact .inr ⟨a, es, rfl, hw, step_narrow hi hw⟩

/-- Settles O10: the step of a write or a read depends on `off[4:2]`, the data and the events behind it. -/
theorem accessIsSelectedByWordAddress : Obligations.AccessIsSelectedByWordAddress := by
  refine ⟨fun s a b es ha hb hwe hv hsel => ?selected, fun s es => ?unaligned, fun s a es hw => ?width⟩
  case selected =>
    by_cases h : a.we = 1#1
    · rw [step_write (s := { s with inputs := .access a :: es }) rfl ha h,
        step_write (s := { s with inputs := .access b :: es }) rfl hb (hwe ▸ h), hsel, hv]
      rfl
    · have h0 := eq_zero_of_ne_one h
      rw [step_read (s := { s with inputs := .access a :: es }) rfl ha h0,
        step_read (s := { s with inputs := .access b :: es }) rfl hb (hwe ▸ h0), hsel]
      rfl
  case unaligned => exact step_read (s := { s with inputs := .access (hostRead 0x11#5) :: es }) rfl rfl rfl
  case width => exact step_narrow (s := { s with inputs := .access a :: es }) rfl hw

/-! What an access can disturb. -/

/-- `s` with CONFIG, the flags and the word returned as in `t`: every field that an access to a running block may
change (70_reset_and_hazards.md rules R236, R238 and R247). -/
def State.withHostWritable (s t : State) : State :=
  { s with
    thresh := t.thresh, ie := t.ie, mlevel := t.mlevel, mtimeout := t.mtimeout, done := t.done, cmderr := t.cmderr,
    rdata := t.rdata }

theorem HostEffect.eq_withHostWritable {s t : State} (h : HostEffect s t) (hs : s.phase ≠ .idle) :
    t = s.withHostWritable t := by
  cases h with
  | read hi | measure hi => exact absurd hi hs
  | same | reject | config | status | word => rfl

/-- Settles O23: the effect of an access that is taken, with the acceptances left to IDLE. -/
theorem hostCannotDisturbACommand : Obligations.HostCannotDisturbACommand := by
  intro s t a es hi hs h
  by_cases hw : a.width = 32
  · obtain ⟨u, hu, he⟩ := exec_decodeBus a.word (s.setInputs es)
    rw [step_access hi hw, hu] at h
    injection h with h
    subst u
    exact he.eq_withHostWritable hs
  · rw [step_narrow hi hw] at h
    cases h

/-! Reset and clocks. -/

theorem irq_of_not_done {s : State} (h : s.done = 0#1) : irq s = 0#1 := by
  rw [irq, h]
  exact BitVec.zero_and

/-- Settles O53: the step of a reset is `resetBlock`, which is IDLE. -/
theorem resetEventRestoresResetState : Obligations.ResetEventRestoresResetState := fun _ _ hi =>
  ⟨_, step_reset hi, rfl, rfl, rfl, lineOe_of_idle rfl, irq_of_not_done rfl⟩

section events
variable {c : ClockInputs}

theorem events_of_rst (h : c.rst = 1#1) : c.events = [.reset] := if_pos h

theorem events_of_access {a : Access} (h : c.rst = 0#1) (ha : c.access = some a) :
    c.events = [.clock c.lineIn, .access a] := by
  simp [ClockInputs.events, h, ha]

theorem events_of_no_access (h : c.rst = 0#1) (ha : c.access = none) : c.events = [.clock c.lineIn] := by
  simp [ClockInputs.events, h, ha]

end events

/-- Settles O54: the events of a clock by `rst` and the access, TICKGEN by `clockEdge`, and the read behind a tick. -/
theorem tickComesBeforeHostAccess : Obligations.TickComesBeforeHostAccess :=
  ⟨fun _ => events_of_rst, fun _ _ => events_of_access, fun _ => events_of_no_access, fun _ _ _ => step_clock,
    hostReadReturnsItsRegister.2⟩

/-! The record of the last command. -/

/-- What the end of a command records, but for DONE (60_exceptions.md rule R204). -/
def State.record (s : State) : Result × Code × BitVec 6 × TickCount × FrameBits × FrameBits :=
  (s.result, s.errphase, s.bitidx, s.count, s.shift, s.data)

section record
variable {s t : State}

/-- A host operation that leaves the block IDLE is no acceptance, so it keeps the record. -/
theorem HostEffect.record_eq (h : HostEffect s t) (ht : t.phase = .idle) : t.record = s.record := by
  cases h with
  | read | measure => cases ht
  | same | reject | config | status | word => rfl

theorem step_record_eq (h : step s = .next t) (hr : nextIsReset s = false) (hs : s.phase = .idle)
    (ht : t.phase = .idle) : t.record = s.record := by
  obtain ⟨-, rfl⟩ | ⟨smp, es, -, rfl⟩ | ⟨-, es, -, -, -, he⟩ | ⟨es, hi, rfl⟩ | ⟨smp, es, -, rfl⟩ := step_cases h
  · rw [tick_idle (s := s.countDraw) hs]; rfl
  · rw [tick_idle (s := s.setInputs es) hs]; rfl
  · exact he.record_eq ht
  · simp [nextIsReset, hi] at hr
  · rcases clockEdge_cases params smp (s.setInputs es) with e | e <;> rw [e] <;> rfl

theorem command_measure_of_idle (hs : s.phase = .idle) : s.command 2#3 = s.acceptMeasure := by
  simp [State.command, hs]

/-- In IDLE, DONE is cleared early by a STATUS write with bit 1 set alone (45_host_interface.md rule R177). -/
theorem step_done_of_idle (h : step s = .next t) (hr : nextIsReset s = false) (hs : s.phase = .idle)
    (ht : t.phase = .idle) :
    t.done = s.done ∨ t.done = 0#1 ∧ ∃ v, nextIsWrite s 2#3 v ∧ v.extractLsb' 1 1 = 1#1 := by
  obtain ⟨hr', -⟩ | ⟨sel, v, es, hn, rfl⟩ | ⟨-, -, hdone | ⟨hp, -⟩⟩ := step_flags_cases h
  · rw [hr] at hr'; cases hr'
  · obtain hdone | ⟨hdone, ⟨rfl, hv⟩ | ⟨rfl, hp, hv⟩⟩ := writeReg_done (s.setInputs es) (sel := sel) v
    · exact .inl hdone
    · exact .inr ⟨hdone, v, hn, hv⟩
    · have hw : (s.setInputs es).writeReg 0#3 v = (s.setInputs es).command (v.extractLsb' 0 3) := rfl
      rw [hw] at ht
      rcases hv with hv | hv
      · rw [hv, command_read_of_idle _ hp] at ht; cases ht
      · rw [hv, command_measure_of_idle hp] at ht; cases ht
  · exact .inl hdone
  · exact absurd hs hp

end record

/-- Settles O46: the inversion of `step` in IDLE for the record, and that of the flags for DONE. -/
theorem recordStaysUntilTheNextCommand : Obligations.RecordStaysUntilTheNextCommand := by
  intro s t h hr hs ht
  have hrec := step_record_eq h hr hs ht
  simp only [State.record, Prod.mk.injEq] at hrec
  obtain ⟨hres, herr, hidx, hcount, hshift, hdata⟩ := hrec
  exact ⟨hres, herr, hidx, hcount, hshift, hdata, step_done_of_idle h hr hs ht⟩

/-! PHASE. -/

/-- The edges of a command's state machine that a tick may follow (10_state.md rule R21). -/
def phaseEdges : List (Phase × Phase) :=
  [(.startLow, .startHigh), (.startHigh, .ackLow), (.ackLow, .ackHigh), (.ackHigh, .bitMark), (.bitMark, .bitHigh),
    (.bitHigh, .bitMark), (.ackLow, .idle), (.ackHigh, .idle), (.bitMark, .idle), (.bitHigh, .idle), (.measure, .idle)]

/-- Each wait has an edge to IDLE: its timeout. -/
theorem waitPhase_idle_mem_phaseEdges (q : WaitPhase) : (q.phase, Phase.idle) ∈ phaseEdges := by
  cases q <;> decide

section phase
variable {p : Params} {smp : Bit} {s t : State}

/-- A tick moves PHASE along an edge, or not at all. -/
theorem TickEffect.phase_edge (h : TickEffect p smp s t) (hne : t.phase ≠ s.phase) :
    (s.phase, t.phase) ∈ phaseEdges := by
  cases h with
  | idle | count => exact absurd rfl hne
  | timeout q h => rw [h]; exact waitPhase_idle_mem_phaseEdges q
  | frameEnd h => rw [frameEnd_phase, h]; exact waitPhase_idle_mem_phaseEdges .bitHigh
  | measured h => rw [h]; exact waitPhase_idle_mem_phaseEdges .measure
  | startHigh h | release h | ackHigh h | bitMark h | bitHigh h | nextBit h => simp [phaseEdges, h]

/-- A write moves PHASE by an acceptance, or not at all (45_host_interface.md rule R171). -/
theorem writeReg_phase (s : State) {sel : BitVec 3} (v : Word) :
    (s.writeReg sel v).phase = s.phase ∨ sel = 0#3 ∧ s.phase = .idle ∧
      (v.extractLsb' 0 3 = 1#3 ∧ (s.writeReg sel v).phase = .startLow ∨
        v.extractLsb' 0 3 = 2#3 ∧ (s.writeReg sel v).phase = .measure) := by
  obtain rfl | rfl | rfl | h := sel_cases sel
  · have hw : s.writeReg 0#3 v = s.command (v.extractLsb' 0 3) := rfl
    obtain e | e | ⟨hi, hc, e⟩ | ⟨hi, hc, e⟩ := command_cases s (v.extractLsb' 0 3) <;> rw [hw, e]
    · exact .inl rfl
    · exact .inl rfl
    · exact .inr ⟨rfl, hi, .inl ⟨hc, rfl⟩⟩
    · exact .inr ⟨rfl, hi, .inr ⟨hc, rfl⟩⟩
  · exact .inl rfl
  · exact .inl rfl
  · rw [writeReg_readOnly s v h]; exact .inl rfl

end phase

/-- Settles O49: a reset, a tick along an edge, or a write that is accepted. -/
theorem phaseFollowsTheReadSequence : Obligations.PhaseFollowsTheReadSequence := by
  intro s t h hne
  obtain ⟨hi, rfl⟩ | ⟨smp, es, hi, rfl⟩ | ⟨a, es, hi, hw, -, -⟩ | ⟨es, hi, rfl⟩ | ⟨smp, es, -, rfl⟩ := step_cases h
  · exact .inr (.inl ⟨by rw [nextTick_of_nil hi]; rfl,
      (tick_effect _ s.countDraw (by decide) (by decide) (by decide)).phase_edge hne⟩)
  · exact .inr (.inl ⟨by rw [nextTick_of_tick hi]; rfl,
      (tick_effect smp (s.setInputs es) (by decide) (by decide) (by decide)).phase_edge hne⟩)
  · obtain ⟨sel, v, hn, rfl⟩ | ⟨w, rfl⟩ := step_access_cases hi hw h
    · obtain hsame | ⟨rfl, hs, ⟨hc, ht⟩ | ⟨hc, ht⟩⟩ := writeReg_phase (s.setInputs es) (sel := sel) v
      · exact absurd hsame hne
      · exact .inr (.inr (.inl ⟨v, hn, hc, hs, ht⟩))
      · exact .inr (.inr (.inr ⟨v, hn, hc, hs, ht⟩))
    · exact absurd rfl hne
  · exact .inl ⟨by simp [nextIsReset, hi], rfl⟩
  · refine absurd ?_ hne
    rcases clockEdge_cases params smp (s.setInputs es) with e | e <;> rw [e] <;> rfl

end Sys2Proof.Machine
end

section
/-! What a tick leaves alone: the host's registers and the snapshots, the frame state of a MEASURE, and, in a READ, the
registers that only a MEASURE uses (10_state.md rules R29 to R31, 92_eei_decisions.md D14). -/

namespace Sys2Proof.Machine

/-- Settles O27: the ticks of the three phases do not name the sample. -/
theorem sampleIsIgnoredOutsideWaits : Obligations.SampleIsIgnoredOutsideWaits := by
  intro p smp smp' s hs
  obtain h | h | h := hs
  · rw [tick_idle h, tick_idle h]
  · rw [tick_startLow smp h, tick_startLow smp' h]
  · rw [tick_startHigh smp h, tick_startHigh smp' h]

/-! The completion of BIT_HIGH, with any ENTER (43_frame_sampler.md rule R142). -/

section bitHigh
variable {p : Params} {smp : Bit} {s : State} (k : WaitPhase → State → State) {c : TickCount}

theorem evalWait_bitHigh_last
    (h : ptStep p.order smp (waitLevel s .bitHigh) (waitBound p s .bitHigh) s.cnt = .finished c)
    (hn : (s.bitidx + 1#6).toNat = p.nbits) :
    evalWait p smp k .bitHigh s = ((s.setCount c).storeBit (bitOf s.thrS c)).frameEnd := by
  simp only [evalWait, h]
  exact if_pos hn

theorem evalWait_bitHigh_next
    (h : ptStep p.order smp (waitLevel s .bitHigh) (waitBound p s .bitHigh) s.cnt = .finished c)
    (hn : (s.bitidx + 1#6).toNat ≠ p.nbits) :
    evalWait p smp k .bitHigh s = k .bitMark ((s.setCount c).storeBit (bitOf s.thrS c)) := by
  simp only [evalWait, h]
  exact if_neg hn

end bitHigh

/-! The fields of the sequencer. -/

/-- `s` with the nine fields that a tick rule names as in `t`. -/
def State.withSequencer (s t : State) : State :=
  { s with
    phase := t.phase, cnt := t.cnt, bitidx := t.bitidx, shift := t.shift, data := t.data, count := t.count,
    done := t.done, result := t.result, errphase := t.errphase }

/-- From `s` to `t` only the sequencer's fields change. -/
def MovesSequencer (s t : State) : Prop := t = s.withSequencer t

section movesSequencer
variable {s t u : State}

theorem MovesSequencer.trans (h : MovesSequencer s t) (h' : MovesSequencer t u) : MovesSequencer s u :=
  calc u = t.withSequencer u := h'
    _ = (s.withSequencer t).withSequencer u := congrArg (State.withSequencer · u) h
    _ = s.withSequencer u := rfl

theorem movesSequencer_frameEnd (s : State) : MovesSequencer s s.frameEnd := by
  cases h : frameCheck s.shift
  · rw [frameEnd_mismatch h]; rfl
  · rw [frameEnd_valid h]; rfl

theorem movesSequencer_driveTick (d : Nat) (q : Phase) (s : State) : MovesSequencer s (driveTick d q s) := by
  by_cases h : (s.cnt + 1#17).toNat = d
  · rw [driveTick_enter h]; rfl
  · rw [driveTick_count h]; rfl

theorem movesSequencer_evalWait (p : Params) (smp : Bit) {k : WaitPhase → State → State}
    (hk : ∀ q u, MovesSequencer u (k q u)) (q : WaitPhase) (s : State) : MovesSequencer s (evalWait p smp k q s) := by
  match h : ptStep p.order smp (waitLevel s q) (waitBound p s q) s.cnt with
  | .cont c => rw [evalWait_cont k h]; rfl
  | .timeout c => rw [evalWait_timeout k h]; rfl
  | .finished c =>
    have hcount : MovesSequencer s (s.setCount c) := rfl
    cases q with
    | ackLow | ackHigh | bitMark => simp only [evalWait, h]; exact hcount.trans (hk _ _)
    | bitHigh =>
      have hstore : MovesSequencer s ((s.setCount c).storeBit (bitOf s.thrS c)) := rfl
      by_cases hn : (s.bitidx + 1#6).toNat = p.nbits
      · rw [evalWait_bitHigh_last k h hn]; exact hstore.trans (movesSequencer_frameEnd _)
      · rw [evalWait_bitHigh_next k h hn]; exact hstore.trans (hk _ _)
    | measure => simp only [evalWait, h]; rfl

/-- A wait tick, its chained evaluation included, in any phase (log entry 5). -/
theorem movesSequencer_waitTick (p : Params) (smp : Bit) (q : WaitPhase) (s : State) :
    MovesSequencer s (waitTick p smp q s) := by
  refine movesSequencer_evalWait p smp (fun q u => ?_) q s
  have henter : MovesSequencer u (u.enter q.phase) := rfl
  exact henter.trans (movesSequencer_evalWait p smp (k := fun _ u => u) (fun _ _ => rfl) q _)

end movesSequencer

/-- Settles O37: each tick instruction is an idle, a driven or a wait tick. -/
theorem ticksLeaveTheHostsRegistersAlone : Obligations.TicksLeaveTheHostsRegistersAlone := by
  intro i smp s t hi h
  simp only [List.mem_cons, List.not_mem_nil, or_false] at hi
  obtain rfl | rfl | rfl | rfl | rfl | rfl | rfl | rfl := hi <;> injection h with h <;> subst t
  · rfl
  · exact movesSequencer_driveTick _ _ s
  · exact movesSequencer_driveTick _ _ s
  all_goals exact movesSequencer_waitTick _ _ _ s

/-! A whole MEASURE. -/

/-- In MEASURE from CNT 0, the end of the command leaves CNT as it was. -/
theorem endCommand_of_cnt_zero {s : State} (hc : s.cnt = 0#17) (r : Result) (e : Code) :
    s.endCommand r e = { s with result := r, errphase := e, done := 1#1, phase := .idle } := by
  rw [State.endCommand, ← hc]

/-- Settles O36: the samples at MLVL_S are counted, and the MEASURE ends as a wait that completes or times out. -/
theorem measureCountsSamples : Obligations.MeasureCountsSamples := by
  intro p s ho hs hc
  have hslack := p.slack_of_incrementThenCheck ho
  have hb : s.mtoS.toNat ≤ 65535 := Nat.le_of_lt_succ s.mtoS.isLt
  refine ⟨fun n hn => ⟨?count, fun smp hsmp => ?done⟩, ?timeout⟩
  case count =>
    have h := ticks_self_count (p := p) (q := .measure) (n := n) hs rfl hb (by simpa [hc, hslack, waitBound] using hn)
    rwa [hc, BitVec.zero_add] at h
  case done =>
    rw [ticks_measure_done hs hc (by simpa [hslack] using hn) hsmp]
    exact endCommand_of_cnt_zero (s := s.setCount (BitVec.ofNat 17 n)) hc _ _
  case timeout =>
    refine (ticks_self_timeout (p := p) (q := .measure) (n := s.mtoS.toNat) hs rfl hb
      (by simp [hc, hslack, waitBound])).trans ?_
    exact endCommand_of_cnt_zero (s := s.setCount (BitVec.ofNat 17 (s.mtoS.toNat + 1))) hc _ _

/-! The registers of a MEASURE. -/

/-- `s` with other snapshots for a MEASURE (10_state.md rule R31). -/
def State.withMeasure (s : State) (mlvlS : Bit) (mtoS : BitVec 16) : State := { s with mlvlS := mlvlS, mtoS := mtoS }

/-- Outside MEASURE, `f` neither reads the snapshots of a MEASURE nor enters MEASURE. -/
def IgnoresMeasure (f : State → State) : Prop :=
  ∀ (s : State) (mlvlS : Bit) (mtoS : BitVec 16), s.phase ≠ .measure →
    f (s.withMeasure mlvlS mtoS) = (f s).withMeasure mlvlS mtoS ∧ (f s).phase ≠ .measure

section ignoresMeasure
variable {p : Params} {smp : Bit} {q : WaitPhase}

theorem ignoresMeasure_frameEnd : IgnoresMeasure State.frameEnd := by
  intro s m t _
  refine ⟨?_, by rw [frameEnd_phase]; decide⟩
  cases h : frameCheck s.shift
  · rw [frameEnd_mismatch h]; exact frameEnd_mismatch (s := s.withMeasure m t) h
  · rw [frameEnd_valid h]; exact frameEnd_valid (s := s.withMeasure m t) h

theorem ignoresMeasure_driveTick (d : Nat) {r : Phase} (hr : r ≠ .measure) : IgnoresMeasure (driveTick d r) := by
  intro s m t hs
  by_cases h : (s.cnt + 1#17).toNat = d
  · rw [driveTick_enter h]; exact ⟨driveTick_enter (s := s.withMeasure m t) h, hr⟩
  · rw [driveTick_count h]; exact ⟨driveTick_count (s := s.withMeasure m t) h, hs⟩

theorem ignoresMeasure_evalWait {k : WaitPhase → State → State} (hk : ∀ q, q ≠ .measure → IgnoresMeasure (k q))
    (hq : q ≠ .measure) : IgnoresMeasure (evalWait p smp k q) := by
  intro s m t hs
  have hl : waitLevel (s.withMeasure m t) q = waitLevel s q := by
    cases q with
    | measure => exact absurd rfl hq
    | _ => rfl
  have hb : waitBound p (s.withMeasure m t) q = waitBound p s q := by
    cases q with
    | measure => exact absurd rfl hq
    | _ => rfl
  have hc : (s.withMeasure m t).cnt = s.cnt := rfl
  match hr : ptStep p.order smp (waitLevel s q) (waitBound p s q) s.cnt with
  | .cont c => rw [evalWait_cont k hr, evalWait_cont k (by rwa [hl, hb, hc])]; exact ⟨rfl, hs⟩
  | .timeout c =>
    rw [evalWait_timeout k hr, evalWait_timeout k (by rwa [hl, hb, hc])]
    exact ⟨rfl, Phase.noConfusion⟩
  | .finished c =>
    have hr' : ptStep p.order smp (waitLevel (s.withMeasure m t) q) (waitBound p (s.withMeasure m t) q)
        (s.withMeasure m t).cnt = .finished c := by rwa [hl, hb, hc]
    cases q with
    | ackLow | ackHigh | bitMark =>
      simp only [evalWait, hr, hr']
      exact hk _ (by decide) (s.setCount c) m t hs
    | bitHigh =>
      by_cases hn : (s.bitidx + 1#6).toNat = p.nbits
      · rw [evalWait_bitHigh_last k hr hn, evalWait_bitHigh_last k hr' hn]
        exact ignoresMeasure_frameEnd ((s.setCount c).storeBit (bitOf s.thrS c)) m t hs
      · rw [evalWait_bitHigh_next k hr hn, evalWait_bitHigh_next k hr' hn]
        exact hk _ (by decide) ((s.setCount c).storeBit (bitOf s.thrS c)) m t hs
    | measure => exact absurd rfl hq

theorem WaitPhase.phase_ne_measure (hq : q ≠ .measure) : q.phase ≠ .measure := by
  cases q with
  | measure => exact absurd rfl hq
  | _ => exact Phase.noConfusion

theorem ignoresMeasure_waitTick (hq : q ≠ .measure) : IgnoresMeasure (waitTick p smp q) := by
  refine ignoresMeasure_evalWait (fun r hr s m t _ => ?_) hq
  exact ignoresMeasure_evalWait (k := fun _ u => u) (fun _ _ _ _ _ hu => ⟨rfl, hu⟩) hr (s.enter r.phase) m t
    (WaitPhase.phase_ne_measure hr)

theorem ignoresMeasure_tick (p : Params) (smp : Bit) : IgnoresMeasure (tick p smp) := by
  intro s m t hs
  have wait (q : WaitPhase) (hq : q ≠ .measure) (h : s.phase = q.phase) :
      tick p smp (s.withMeasure m t) = (tick p smp s).withMeasure m t ∧ (tick p smp s).phase ≠ .measure := by
    rw [tick_wait smp h, tick_wait (s := s.withMeasure m t) smp h]
    exact ignoresMeasure_waitTick hq s m t hs
  match h : s.phase with
  | .idle => rw [tick_idle h]; exact ⟨tick_idle (s := s.withMeasure m t) h, hs⟩
  | .startLow =>
    rw [tick_startLow smp h, tick_startLow (s := s.withMeasure m t) smp h]
    exact ignoresMeasure_driveTick _ (by decide) s m t hs
  | .startHigh =>
    rw [tick_startHigh smp h, tick_startHigh (s := s.withMeasure m t) smp h]
    exact ignoresMeasure_driveTick _ (by decide) s m t hs
  | .ackLow => exact wait .ackLow (by decide) h
  | .ackHigh => exact wait .ackHigh (by decide) h
  | .bitMark => exact wait .bitMark (by decide) h
  | .bitHigh => exact wait .bitHigh (by decide) h
  | .measure => exact absurd h hs

theorem ignoresMeasure_ticks (p : Params) (l : List Bit) : IgnoresMeasure (ticks p l) := by
  induction l with
  | nil => exact fun _ _ _ hs => ⟨rfl, hs⟩
  | cons a l ih =>
    intro s m t hs
    obtain ⟨heq, hne⟩ := ignoresMeasure_tick p a s m t hs
    rw [ticks_cons, ticks_cons, heq]
    exact ih _ m t hne

end ignoresMeasure

/-- Settles O50: CONFIG's fields by `ticks_setConfig`, the snapshots of a MEASURE by the ticks outside MEASURE. -/
theorem readIgnoresMeasureRegisters : Obligations.ReadIgnoresMeasureRegisters := by
  intro p l s thresh ie mlevel mlvlS mtimeout mtoS hs
  obtain ⟨hticks, -⟩ := ignoresMeasure_ticks p l (s.setConfig mtimeout mlevel ie thresh) mlvlS mtoS hs
  refine hticks.trans ?_
  rw [ticks_setConfig]
  rfl

end Sys2Proof.Machine
end

section
/-! The register words and the codes as numbers (30_encoding.md rules R72 to R78, R81 and R82), and the checksum's
detection of a flipped bit (44_checksum_validator.md rule R164). -/

namespace Sys2Proof.Machine

/-! Register words. -/

/-- A word of two fields as a number. -/
theorem toNat_append_add {m n : Nat} (x : BitVec m) (y : BitVec n) :
    (x ++ y).toNat = x.toNat * 2 ^ n + y.toNat := by
  rw [BitVec.toNat_append, ← Nat.shiftLeft_add_eq_or_of_lt y.isLt, Nat.shiftLeft_eq]

section words
variable (s : State)

theorem toNat_configWord :
    (configWord s).toNat =
      s.thresh.toNat + 2 ^ 8 * s.ie.toNat + 2 ^ 9 * s.mlevel.toNat + 2 ^ 16 * s.mtimeout.toNat := by
  simp only [configWord, toNat_append_add, BitVec.toNat_ofNat]
  omega

theorem toNat_statusWord :
    (statusWord s).toNat =
      (busy s).toNat + 2 * s.done.toNat + 2 ^ 2 * s.cmderr.toNat + 2 ^ 4 * s.result.code.toNat +
        2 ^ 8 * s.phase.code.toNat + 2 ^ 12 * s.errphase.toNat + 2 ^ 16 * s.bitidx.toNat := by
  simp only [statusWord, toNat_append_add, BitVec.toNat_ofNat]
  omega

theorem toNat_countWord : (countWord s).toNat = s.count.toNat := by
  rw [countWord, toNat_append_add, BitVec.toNat_ofNat, Nat.zero_mod, Nat.zero_mul, Nat.zero_add]

theorem toNat_frameHigh (f : FrameBits) : (frameHigh f).toNat = f.toNat / 2 ^ 8 := by
  have hlt : f.toNat / 2 ^ 8 < 2 ^ 32 := Nat.div_lt_of_lt_mul f.isLt
  rw [frameHigh, BitVec.extractLsb'_toNat, Nat.shiftRight_eq_div_pow, Nat.mod_eq_of_lt hlt]

theorem toNat_frameByte_last (f : FrameBits) : (frameByte f 4).toNat = f.toNat % 2 ^ 8 := by
  rw [toNat_frameByte, Nat.pow_zero, Nat.div_one]; rfl

theorem toNat_data1Word : (data1Word s).toNat = s.data.toNat % 2 ^ 8 := by
  rw [data1Word, toNat_append_add, toNat_frameByte_last, BitVec.toNat_ofNat, Nat.zero_mod, Nat.zero_mul, Nat.zero_add]

theorem toNat_raw1Word :
    (raw1Word s).toNat =
      s.shift.toNat % 2 ^ 8 + 2 ^ 8 * (frameSum s.shift).toNat + 2 ^ 16 * (frameCheck s.shift).toNat := by
  simp only [raw1Word, toNat_append_add, toNat_frameByte_last, BitVec.toNat_ofBool, BitVec.toNat_ofNat]
  omega

end words

/-- Settles O14: each word is the sum of its fields, shifted to their places; the codes are computed. -/
theorem registerWordsAsNumbers : Obligations.RegisterWordsAsNumbers :=
  ⟨by decide, by decide, fun s =>
    ⟨toNat_configWord s, toNat_statusWord s, toNat_countWord s, toNat_frameHigh s.data, toNat_data1Word s,
      toNat_frameHigh s.shift, toNat_raw1Word s⟩⟩

/-! A flipped bit. -/

section flip
variable (f : FrameBits) {k : Nat}

/-- CHECK as one equation between the frame bytes, modulo 256. -/
theorem frameCheck_iff_sum : frameCheck f = true ↔ ∑ j ∈ Finset.range 4, frameByte f j = frameByte f 4 := by
  have hsum : frameSum f = ∑ j ∈ Finset.range 4, frameByte f j := by
    simp only [frameSum, Finset.sum_range_succ, Finset.sum_range_zero, zero_add, BitVec.ofNat_add, BitVec.ofNat_toNat,
      BitVec.setWidth_eq]
  rw [frameCheck, beq_iff_eq, hsum]

theorem frameByte_flip (j : Nat) :
    frameByte (f ^^^ (1#40 <<< k)) j = frameByte f j ^^^ frameByte (1#40 <<< k) j := BitVec.extractLsb'_xor

/-- A flip outside a byte leaves it. -/
theorem frameByte_flip_of_outside {j : Nat} (h : k < 32 - 8 * j ∨ 40 - 8 * j ≤ k) (hj : j ≤ 4) :
    frameByte (f ^^^ (1#40 <<< k)) j = frameByte f j := by
  have hzero : frameByte (1#40 <<< k) j = 0#8 := by
    apply BitVec.eq_of_getLsbD_eq
    intro m hm
    rw [getLsbD_frameByte _ _ hm, BitVec.getLsbD_shiftLeft, BitVec.getLsbD_one]
    obtain h | h := h
    · simp [show 32 - 8 * j + m - k ≠ 0 by omega]
    · simp [show 32 - 8 * j + m < k by omega]
  rw [frameByte_flip, hzero, BitVec.xor_zero]

/-- A flip inside a byte changes it. -/
theorem frameByte_flip_ne {j : Nat} (h : 32 - 8 * j ≤ k) (h' : k < 40 - 8 * j) :
    frameByte (f ^^^ (1#40 <<< k)) j ≠ frameByte f j := by
  have hne : frameByte (1#40 <<< k) j ≠ 0#8 := by
    intro h0
    have hbit := congrArg (BitVec.getLsbD · (k - (32 - 8 * j))) h0
    have hpos : 32 - 8 * j + (k - (32 - 8 * j)) = k := by omega
    simp only [getLsbD_frameByte _ _ (show k - (32 - 8 * j) < 8 by omega), hpos] at hbit
    simp [show k < 40 by omega] at hbit
  rw [frameByte_flip]
  intro h
  exact hne (by simpa using h)

/-- One flipped bit changes one of the five bytes, so the equation that held before fails. -/
theorem frameCheck_flip (hk : k < 40) (hf : frameCheck f = true) : frameCheck (f ^^^ (1#40 <<< k)) = false := by
  obtain ⟨q, hq, hlo, hhi⟩ : ∃ q ≤ 4, 32 - 8 * q ≤ k ∧ k < 40 - 8 * q := ⟨4 - k / 8, by omega, by omega, by omega⟩
  have touched := frameByte_flip_ne f hlo hhi
  have other (j : Nat) (hj : j ≤ 4) (hne : j ≠ q) : frameByte (f ^^^ (1#40 <<< k)) j = frameByte f j :=
    frameByte_flip_of_outside f (by omega) hj
  rw [← Bool.not_eq_true, frameCheck_iff_sum]
  rw [frameCheck_iff_sum] at hf
  intro h
  obtain rfl | hlt := Nat.eq_or_lt_of_le hq
  · refine touched (h.symm.trans (Eq.trans (Finset.sum_congr rfl fun j hj => ?_) hf))
    have := Finset.mem_range.mp hj
    exact other j (by omega) (by omega)
  · have hmem : q ∈ Finset.range 4 := Finset.mem_range.mpr hlt
    have rest : ∑ j ∈ (Finset.range 4).erase q, frameByte (f ^^^ (1#40 <<< k)) j =
        ∑ j ∈ (Finset.range 4).erase q, frameByte f j := by
      refine Finset.sum_congr rfl fun j hj => ?_
      obtain ⟨hne, hj⟩ := Finset.mem_erase.mp hj
      exact other j (Finset.mem_range.mp hj).le hne
    rw [other 4 le_rfl hlt.ne', ← hf, ← Finset.add_sum_erase _ _ hmem, ← Finset.add_sum_erase _ _ hmem, rest] at h
    exact touched (add_right_cancel h)

end flip

/-- Settles O41: the zero frame's bytes are 0, and a flip changes one side of the checksum's equation. -/
theorem singleBitFlipIsDetected : Obligations.SingleBitFlipIsDetected :=
  ⟨frameCheck_zero, fun f _ hk hf => frameCheck_flip f hk hf⟩

end Sys2Proof.Machine
end
